-- ==== Sys2Proof/Word.lean ====
section
/-! DEFINITION. The word types the spec computes with (00_scope.md R10, R11): bytes, words, doublewords and the
128-bit q word. A value is a bit vector only where the spec numbers, masks or wraps its bits. -/

namespace Sys2Proof

/-- One byte of memory. -/
abbrev Byte := BitVec 8
/-- A 16-bit field. -/
abbrev Half := BitVec 16
/-- A 32-bit word. -/
abbrev Word := BitVec 32
/-- A 64-bit register or control register (R13, R259). -/
abbrev Dword := BitVec 64
/-- A short-vector register (R260). -/
abbrev Qword := BitVec 128

end Sys2Proof
end

