-- ==== Sys2Proof/Syntax.lean ====
section
/-! DEFINITION. The commands: one constructor per row of spec/opcode_table.json, with the row's operands. A Nanona
instruction carries the core or Tower that executes it and its encoded fields; an event carries what the outside
supplies. Operand types make most illegal encodings unspellable; WellFormed.lean checks the rest. -/

namespace Sys2Proof

/-- Tower number T, 0 to 127 (R21). -/
abbrev TId := BitVec 7
/-- Number of a g, f, q or v register (R226, R259, R260). -/
abbrev GReg := BitVec 5
/-- Number of a segment, mask, tile or Dome register. -/
abbrev R3 := BitVec 3

/-- The Nanona core that executes: a Tower core, or the Keep of die 0 (`false`) or 1 (`true`) (R263). -/
inductive CoreId where
  | tower (t : TId)
  | keep (die : Bool)
deriving DecidableEq, Repr

/-- Structures of a Tower in which an engine instruction can meet an error that its protection does not correct (R158, R505):
Dome lanes and tags, tile registers, vector and mask registers, Spire latch sets, a residue mismatch of the Spire, Turret program
slots, and queue, tracker or FIFO entries. -/
inductive TowerPart where
  | dome | tile | vector | latch | residue | slot | queue
deriving DecidableEq, Repr

/-- How far an engine instruction goes in one command: `push`, the core pushes it into its queue (R24);
`whole`, the engine also runs its queue up to and including it (R291); `upset`, the engine reaches it and meets an
uncorrectable error there (R505). -/
inductive Issue where
  | push
  | whole
  | upset (p : TowerPart)
deriving DecidableEq, Repr

/-- Rounding-mode fields that are not reserved (R82). -/
inductive Rm where
  | rne | rtz | rdn | rup | rna | dyn
deriving DecidableEq, Repr

/-- Formats with the codes of R141, R175 and R227, in code order 0x0 to 0xB. -/
inductive Fmt where
  | pip8a | pip8b | pip16 | int8 | b32 | b64 | int4 | int16 | int32 | int64 | c32 | c64
deriving DecidableEq, Repr

/-- Operand fields of a vector arithmetic instruction (R256). -/
structure VArith where
  d : GReg
  a : GReg
  b : GReg
  /-- M = 1: masked by m`k`. -/
  m : Bool
  k : R3
  /-- S = 1: operand B is a scalar register (R239). -/
  sc : Bool
deriving DecidableEq, Repr

/-- Operand fields of a vector memory instruction (R256). -/
structure VMem where
  v : GReg
  s : R3
  a : GReg
  b : GReg
  m : Bool
  k : R3
deriving DecidableEq, Repr

/-- Which address form `vprobe` names (R253). -/
inductive VForm where
  | unit | strided | indexed
deriving DecidableEq, Repr

/-- An upset that a core's instruction meets: an L1 parity error in clean or dirty data, or in a tag or state entry (R313);
an uncorrectable error in a g, q, s or core state register (R505). -/
inductive Upset where
  | none | data | tag | regs
deriving DecidableEq, Repr

/-- A core and the upset that its L1 parity checks meet while the instruction reads or writes back lines (R313); a Tower and
the same while its context is saved. -/
structure CoreRun where
  core : CoreId
  up : Upset
deriving DecidableEq, Repr
structure TowerRun where
  tower : TId
  up : Upset
deriving DecidableEq, Repr

/-- How the host die answers a write of the module to the host memory window (R352). -/
inductive Resp where
  | ok | hostErr | timeout
deriving DecidableEq, Repr

/-- A walk: the DVA, the host die's answer to the walker's reads of the window (R379, R566), and whether a parity error in the
TLBs or the walk cache leads to it (R505). -/
structure WalkRequest where
  dva : BitVec 48
  resp : Resp
  upset : Bool
deriving DecidableEq, Repr

/-- The host die's answers to the Keep's reads of a descriptor and of its region list in the window (R457, R462). -/
structure DescAns where
  desc : Resp
  list : Resp
deriving DecidableEq, Repr

/-- The host die's answers to the Keep's writes of result data and of a reply entry in the window (R565). -/
structure ReplyAns where
  result : Resp
  reply : Resp
deriving DecidableEq, Repr

/-- What an SMBus transaction carries beside its block: target address, command code, whether its packet error code is right
(R447, R530). -/
structure SmbFrame where
  addr : BitVec 7
  code : Byte
  pecOk : Bool
deriving DecidableEq, Repr

/-- A port lost without a sibling, and whether because its partner lost power (R418, R439). -/
structure PortLoss where
  port : BitVec 5
  power : Bool
deriving DecidableEq, Repr

/-- An ALIGN packet is a request that came by a port, or the parent's reply (R44, R440). -/
inductive AlignKind where
  | request (port : BitVec 5)
  | reply
deriving DecidableEq, Repr

/-- The end of a droop stretch: its tc, and how far below the set voltage each of the four detectors finds the supply, in mV
(R495). -/
structure StretchEnd where
  tcs : Half
  mv : List Byte
deriving DecidableEq, Repr

/-- The end of a UCIe module's training: the state reached, the data lanes repaired (R532, R558), and retries that its adapter
counted since the last (R558). -/
structure UcieTraining where
  st : BitVec 2
  repaired : Byte
  retries : Half
deriving DecidableEq, Repr

/-- What a retraining finds: the lanes that fail it, and the corrected FEC symbols of each lane since the one before (R415,
R416, R508). -/
structure LaneReport where
  bad : Byte
  corr : List Nat
deriving DecidableEq, Repr

/-- What a memory controller's check of one granule finds (R358–R360). -/
inductive EccResult where
  | clean | corrected | uncorrectable
deriving DecidableEq, Repr

/-- Requesters of a Tower that translate (R382, R387). -/
inductive Requester where
  | core | vector | dome | tile | turret | spire | stream (slot : BitVec 4)
deriving DecidableEq, Repr

/-- Kind of an access (R272). -/
inductive Access where
  | read | write | fetch
deriving DecidableEq, Repr

/-- Fields of a Wennum packet beside its opcode (R442); `params` is bytes 0x10 to 0x3F, little-endian. -/
structure Wennum where
  flags  : Half
  seq    : Word
  handle : Word
  length : Half
  zero   : Half
  params : BitVec 384
deriving DecidableEq, Repr

/-- The path a Wennum packet came by (R445). -/
inductive Path where
  | ring | smbus
deriving DecidableEq, Repr

/-- What the Keeps sample and meet at a roll boundary (R55, R488, R500, R516). -/
structure Sample where
  /-- junction reading of each region, 0 to 31 (R488) -/
  temps : List Byte
  /-- module energy of the roll in µJ and average power in W (R500) -/
  energy : Word
  power : Half
  inlet : Byte
  outlet : Byte
  /-- the leader's decisions were late (R54) -/
  late : Bool
  /-- the follower's directions arrived (R27) -/
  directed : Bool
  /-- the follower reported to the leader in this roll (R516) -/
  reported : Bool
  /-- the follower reported a part fault of its own, or its bridge traffic failed (R516) -/
  followerFault : Bool
  /-- control traffic over the bridge fails its CRC retries (R516) -/
  bridgeFault : Bool
  /-- the host die's answers, other than acceptance, to the Keeps' accesses of the window at this boundary: to completion
  entries by channel and count posted (R352, R457), to reads of admin packets by number (R565), to sample records by Tower
  (R333, R334) -/
  cqAnswers : List ((Nat × Nat) × Resp)
  admAnswers : List (Nat × Resp)
  smpAnswers : List (Nat × Resp)
  /-- readings at the PHYs, die by die: two at memory PHYs, two at link PHYs; temperatures of the GDDR7 devices (R488) -/
  phy : List Byte
  memTemps : List Byte
  /-- draw of the host die in W (R527) -/
  hostPower : Half
deriving DecidableEq, Repr

/-- A packet of the fabric (R419), with its data slots as bytes. -/
structure Packet where
  type   : BitVec 4
  vc     : BitVec 3
  detour : BitVec 2
  pin    : Bool
  dest   : BitVec 12
  src    : BitVec 12
  tower  : BitVec 7
  tag    : BitVec 13
  off    : BitVec 6
  len    : BitVec 6
  lpa    : BitVec 45
  arg    : BitVec 17
  data   : List Byte
deriving DecidableEq, Repr

/-- A received link frame (R411): the first eight bytes, the 15 slots, the zero and CRC words, and whether the FEC
decoded every block (R412). -/
structure Frame where
  head  : Dword
  slots : List Qword
  pad   : Word
  crc   : Word
  fecOk : Bool
deriving DecidableEq, Repr

/-- Of a slot's binding, what every member of the group binds alike (R429). -/
structure CollBind where
  op     : Byte
  cls    : Byte
  m      : Half
  n      : Half
  origin : Half
  ext    : Half
deriving DecidableEq, Repr

/-- A sector of body operands for collective messages (R432): its header and payload bytes. -/
structure CollMsg where
  slot   : BitVec 9
  fromModule : BitVec 12
  groupId : Word
  gen    : Word
  /-- latest arrival stamp of the subtree (R432): roll, phase, fine delay, module -/
  stampRoll  : Dword
  stampPhase : BitVec 11
  stampFine  : BitVec 6
  stampModule : BitVec 12
  block  : List Byte
  /-- the generation has broken (R438) -/
  broken : Bool
  /-- the sender's binding, in so far as every member's must be the same (R429, R438; log entry 113) -/
  bind   : CollBind
  /-- the message tells of a break by a fault (R439; log entry 70) -/
  fault  : Bool
deriving DecidableEq, Repr

/-- A roll frame on ROLL_IN (R41): hop count, roll number, CRC, and rc since the previous frame's marker. -/
structure RollFrame where
  hop  : Byte
  roll : Dword
  crc  : Half
  gap  : Nat
  /-- rc from this module's last boundary to the marker -/
  atPhase : Nat
deriving DecidableEq, Repr

/-- Where a host-die or register access goes: a full 64-bit access or one aligned 32-bit half (R13). -/
inductive RegSize where
  | full | low | high
deriving DecidableEq, Repr

/-- Outcome of a Tower self-test (R510, R511). -/
structure TestResult where
  failed : Bool
  /-- failed physical rows, as logical rows they served (at most two can be mapped) -/
  rows : List (BitVec 7)
  /-- spares found faulty -/
  s0Bad : Bool
  s1Bad : Bool
  /-- words of the store found with a correctable error, and words found with an uncorrectable one (R510) -/
  corrected : List Nat
  uncorrected : List Nat
deriving DecidableEq, Repr

/-- What a firmware image says of itself: SVN, VERSION, and bytes 0x000–0x9FF of its header (R545, R550, R553). -/
structure FactoryImage where
  svn : Word
  version : Word
  head : List Byte
deriving DecidableEq, Repr

/-- Planning of a region's margins (R518–R520): for each Tower, the slack in ps of its path monitors (eight each) at each
operating point without margin; for each operating point, the change of slack in fs per mV. -/
structure MarginPlan where
  slack : List (List (List Int))
  slope : List Nat
deriving DecidableEq, Repr

/-- What the power-up sequence finds in this module's parts (R367, R510, R516, R518, R546). -/
structure BootEnv where
  straps : BitVec 3
  /-- the code that the checks of R546, but for the fifth, give the images that slot A and slot B held at manufacture, 0 when
  they pass; their SVN and VERSION, and bytes 0x000–0x9FF of their headers (R545, R550, R553) -/
  codeA : BitVec 4
  codeB : BitVec 4
  imageA : FactoryImage
  imageB : FactoryImage
  /-- devices that fail full training -/
  devFail : List (BitVec 5)
  /-- training took this many ms (R367) -/
  trainMs : Half
  /-- of each device, the identity it reports and the coefficients that full training gives (R367) -/
  devIdent : List Word
  devCoeff : List Dword
  /-- devices whose coefficient record in the flash fails its CRC -/
  coeffBad : List (BitVec 5)
  /-- what the Towers' self-tests find, for those that find something -/
  towerTests : List (TId × TestResult)
  followerFail : Bool
  /-- margin planning of each region (R518) -/
  plan : List MarginPlan
  /-- first training of each UCIe module (R532) -/
  ucie : List UcieTraining
deriving DecidableEq, Repr

/-- The commands. A constructor's name is its row's mnemonic in lowerCamelCase (LAWS.json holds the map). -/
inductive Instr where
  -- rolls (02_rolls.md)
  | rollBoundary (env : Sample)
  | rollReportRingWrite (resp : Resp)
  | rollFrame (f : RollFrame)
  | rollInLoss
  | fabricAlignExchange (now : Dword)
  | fabricAlignFail
  | rollCfg (v : Dword)
  | rollRptCtrl (v : Dword)
  -- Dome (04_dome.md R140)
  | dmCfg (t : TId) (is : Issue) (d : R3) (cls : R3) (m : Byte) (n : Byte)
  | dmFree (t : TId) (is : Issue) (d : R3)
  | dmClr (t : TId) (is : Issue) (d : R3)
  | dmLd (t : TId) (is : Issue) (d : R3) (s : R3) (a : GReg) (fmt : Fmt) (rm : Rm) (src : Bool) (tile : R3)
  | dmLdadd (t : TId) (is : Issue) (d : R3) (s : R3) (a : GReg) (fmt : Fmt) (rm : Rm) (src : Bool) (tile : R3)
  | dmDrain (t : TId) (is : Issue) (d : R3) (s : R3) (gd : GReg) (gc : GReg)
  | dmXout (t : TId) (is : Issue) (d : R3) (s : R3) (a : GReg)
  | dmXadd (t : TId) (is : Issue) (d : R3) (s : R3) (a : GReg)
  -- Spire (05_spire.md R166)
  | spCfg (t : TId) (is : Issue) (c : GReg)
  | spLds (t : TId) (is : Issue) (ts : R3) (k : BitVec 7) (n : BitVec 7)
  | spLdsm (t : TId) (is : Issue) (s : R3) (a : GReg) (d : GReg)
  | spMm (t : TId) (is : Issue) (d : R3) (ts : R3) (r : GReg) (swap : Bool)
  | spDrop (t : TId) (is : Issue)
  | fillerWork (t : TId)
  | fillRampStep (t : TId)
  -- Turret (06_turret.md R197)
  | tuPtr (t : TId) (is : Issue) (p : BitVec 2) (tile : Bool) (s : R3) (a : GReg) (fmt : Fmt)
  | tuProg (t : TId) (is : Issue) (slot : GReg) (s : R3) (a : GReg)
  | tuRun (t : TId) (is : Issue) (slot : GReg) (count : Half) (hist : Bool)
  -- tiles (07_tiles_and_tower_store.md R223)
  | tld (t : TId) (is : Issue) (d : R3) (s : R3) (a : GReg) (r : GReg)
  | tst (t : TId) (is : Issue) (s : R3) (a : GReg) (tt : R3) (r : GReg)
  | tmv (t : TId) (is : Issue) (d : R3) (ts : R3) (r : GReg)
  | tmvVt (t : TId) (is : Issue) (d : R3) (v : GReg) (h : Bool)
  | tmvTv (t : TId) (is : Issue) (v : GReg) (ts : R3) (h : Bool)
  | tclr (t : TId) (is : Issue) (d : R3)
  | twrTcfgn (byHost : Bool) (t : TId) (n : R3) (v : Dword)
  -- long-vector unit (08_long_vector_unit.md R256)
  | vspan (t : TId) (d : GReg) (a : GReg) (fmt : BitVec 4)
  | vadd (t : TId) (is : Issue) (o : VArith)
  | vsub (t : TId) (is : Issue) (o : VArith)
  | vmul (t : TId) (is : Issue) (o : VArith)
  | vdiv (t : TId) (is : Issue) (o : VArith)
  | vsqrt (t : TId) (is : Issue) (o : VArith)
  | vmin (t : TId) (is : Issue) (o : VArith)
  | vmax (t : TId) (is : Issue) (o : VArith)
  | vfma (t : TId) (is : Issue) (o : VArith)
  | vfms (t : TId) (is : Issue) (o : VArith)
  | vabs (t : TId) (is : Issue) (o : VArith)
  | vneg (t : TId) (is : Issue) (o : VArith)
  | vand (t : TId) (is : Issue) (o : VArith)
  | vor (t : TId) (is : Issue) (o : VArith)
  | vxor (t : TId) (is : Issue) (o : VArith)
  | vsll (t : TId) (is : Issue) (o : VArith)
  | vsrl (t : TId) (is : Issue) (o : VArith)
  | vsra (t : TId) (is : Issue) (o : VArith)
  | vmv (t : TId) (is : Issue) (o : VArith)
  | vmerge (t : TId) (is : Issue) (o : VArith)
  | vcmul (t : TId) (is : Issue) (o : VArith)
  | vcmac (t : TId) (is : Issue) (o : VArith)
  | vconj (t : TId) (is : Issue) (o : VArith)
  | vredsum (t : TId) (is : Issue) (o : VArith)
  | vredmax (t : TId) (is : Issue) (o : VArith)
  | vredmin (t : TId) (is : Issue) (o : VArith)
  | vcmpeq (t : TId) (is : Issue) (o : VArith)
  | vcmplt (t : TId) (is : Issue) (o : VArith)
  | vcmple (t : TId) (is : Issue) (o : VArith)
  | vcmpun (t : TId) (is : Issue) (o : VArith)
  | vwmul (t : TId) (is : Issue) (o : VArith)
  | vwmacc (t : TId) (is : Issue) (o : VArith)
  | vwdot (t : TId) (is : Issue) (o : VArith)
  | vcvt (t : TId) (is : Issue) (d : GReg) (a : GReg) (fmt : Fmt) (rm : Rm) (m : Bool) (k : R3)
  | vld (t : TId) (is : Issue) (o : VMem)
  | vlds (t : TId) (is : Issue) (o : VMem)
  | vldx (t : TId) (is : Issue) (o : VMem)
  | vst (t : TId) (is : Issue) (o : VMem)
  | vsts (t : TId) (is : Issue) (o : VMem)
  | vstx (t : TId) (is : Issue) (o : VMem)
  | vprobe (t : TId) (is : Issue) (form : VForm) (o : VMem)
  | vmand (t : TId) (is : Issue) (d a b : R3)
  | vmor (t : TId) (is : Issue) (d a b : R3)
  | vmxor (t : TId) (is : Issue) (d a b : R3)
  | vmnot (t : TId) (is : Issue) (d a : R3)
  | vmpopc (t : TId) (d : GReg) (a : R3)
  | vmfirst (t : TId) (d : GReg) (a : R3)
  | vext (t : TId) (d : GReg) (a : GReg) (b : GReg) (f : Bool)
  | vrel (t : TId) (is : Issue) (a : GReg)
  -- Nanona scalar instructions (09_nanona_isa.md)
  | illegalInstruction (c : CoreId) (w : Word)
  | add (c : CoreId) (d a b : GReg) (f : Bool)
  | sub (c : CoreId) (d a b : GReg) (f : Bool)
  | and (c : CoreId) (d a b : GReg) (f : Bool)
  | or (c : CoreId) (d a b : GReg) (f : Bool)
  | xor (c : CoreId) (d a b : GReg) (f : Bool)
  | sll (c : CoreId) (d a b : GReg) (f : Bool)
  | srl (c : CoreId) (d a b : GReg) (f : Bool)
  | sra (c : CoreId) (d a b : GReg) (f : Bool)
  | mul (c : CoreId) (d a b : GReg) (f : Bool)
  | mulh (c : CoreId) (d a b : GReg) (f : Bool)
  | mulhu (c : CoreId) (d a b : GReg) (f : Bool)
  | div (c : CoreId) (d a b : GReg) (f : Bool)
  | divu (c : CoreId) (d a b : GReg) (f : Bool)
  | rem (c : CoreId) (d a b : GReg) (f : Bool)
  | remu (c : CoreId) (d a b : GReg) (f : Bool)
  | min (c : CoreId) (d a b : GReg) (f : Bool)
  | max (c : CoreId) (d a b : GReg) (f : Bool)
  | minu (c : CoreId) (d a b : GReg) (f : Bool)
  | maxu (c : CoreId) (d a b : GReg) (f : Bool)
  | adc (c : CoreId) (d a b : GReg) (f : Bool)
  | sbc (c : CoreId) (d a b : GReg) (f : Bool)
  | clz (c : CoreId) (d a : GReg) (f : Bool)
  | ctz (c : CoreId) (d a : GReg) (f : Bool)
  | popc (c : CoreId) (d a : GReg) (f : Bool)
  | addi (c : CoreId) (d a : GReg) (imm : Half)
  | addiF (c : CoreId) (d a : GReg) (imm : Half)
  | andi (c : CoreId) (d a : GReg) (imm : Half)
  | ori (c : CoreId) (d a : GReg) (imm : Half)
  | xori (c : CoreId) (d a : GReg) (imm : Half)
  | slli (c : CoreId) (d a : GReg) (n : BitVec 6)
  | srli (c : CoreId) (d a : GReg) (n : BitVec 6)
  | srai (c : CoreId) (d a : GReg) (n : BitVec 6)
  | kset (c : CoreId) (d : GReg) (imm : Half) (h : BitVec 2)
  | kins (c : CoreId) (d : GReg) (imm : Half) (h : BitVec 2)
  | ld (c : CoreId) (d : GReg) (s : R3) (a : GReg) (size : R3) (off : BitVec 10) (up : Upset)
  | st (c : CoreId) (d : GReg) (s : R3) (a : GReg) (size : R3) (off : BitVec 10)
  | fld (c : CoreId) (d : GReg) (s : R3) (a : GReg) (size : R3) (off : BitVec 10) (up : Upset)
  | fst (c : CoreId) (d : GReg) (s : R3) (a : GReg) (size : R3) (off : BitVec 10)
  | bCond (c : CoreId) (cond : BitVec 4) (off : BitVec 22)
  | jal (c : CoreId) (off : BitVec 26)
  | j (c : CoreId) (off : BitVec 26)
  | jalr (c : CoreId) (d a : GReg)
  | fadd (c : CoreId) (d a b : GReg) (rm : Rm) (dbl : Bool)
  | fsub (c : CoreId) (d a b : GReg) (rm : Rm) (dbl : Bool)
  | fmul (c : CoreId) (d a b : GReg) (rm : Rm) (dbl : Bool)
  | fdiv (c : CoreId) (d a b : GReg) (rm : Rm) (dbl : Bool)
  | fsqrt (c : CoreId) (d a : GReg) (rm : Rm) (dbl : Bool)
  | frem (c : CoreId) (d a b : GReg) (dbl : Bool)
  | fmin (c : CoreId) (d a b : GReg) (dbl : Bool)
  | fmax (c : CoreId) (d a b : GReg) (dbl : Bool)
  | fminnum (c : CoreId) (d a b : GReg) (dbl : Bool)
  | fmaxnum (c : CoreId) (d a b : GReg) (dbl : Bool)
  | frint (c : CoreId) (d a : GReg) (rm : Rm) (dbl : Bool)
  | frintx (c : CoreId) (d a : GReg) (rm : Rm) (dbl : Bool)
  | fnextup (c : CoreId) (d a : GReg) (dbl : Bool)
  | fnextdn (c : CoreId) (d a : GReg) (dbl : Bool)
  | fscaleb (c : CoreId) (d a b : GReg) (rm : Rm) (dbl : Bool)
  | flogb (c : CoreId) (d a : GReg) (dbl : Bool)
  | fneg (c : CoreId) (d a : GReg) (dbl : Bool)
  | fabs (c : CoreId) (d a : GReg) (dbl : Bool)
  | fsgnj (c : CoreId) (d a b : GReg) (dbl : Bool)
  | fclass (c : CoreId) (d a : GReg) (dbl : Bool)
  | fcmp (c : CoreId) (a b : GReg) (dbl : Bool)
  | fcmpe (c : CoreId) (a b : GReg) (dbl : Bool)
  | ftot (c : CoreId) (d a b : GReg) (dbl : Bool)
  | ftotm (c : CoreId) (d a b : GReg) (dbl : Bool)
  | fcvtFf (c : CoreId) (d a : GReg) (rm : Rm) (dbl : Bool)
  | fcvtIf (c : CoreId) (d a : GReg) (rm : Rm) (dbl : Bool) (x sgn w64 : Bool)
  | fcvtFi (c : CoreId) (d a : GReg) (rm : Rm) (dbl : Bool) (sgn w64 : Bool)
  | fusedMulAdd (c : CoreId) (d a b cc : GReg) (rm : Rm) (dbl : Bool)
  | fusedMulSub (c : CoreId) (d a b cc : GReg) (rm : Rm) (dbl : Bool)
  | fusedNegMulAdd (c : CoreId) (d a b cc : GReg) (rm : Rm) (dbl : Bool)
  | fusedNegMulSub (c : CoreId) (d a b cc : GReg) (rm : Rm) (dbl : Bool)
  | mvGf (c : CoreId) (d a : GReg)
  | mvFg (c : CoreId) (d a : GReg)
  | mfcs (c : CoreId) (d : GReg) (n : BitVec 5)
  | mtcs (c : CoreId) (n : BitVec 5) (a : GReg)
  | qadd (c : CoreId) (d a b : GReg) (w : Bool) (lf : R3)
  | qsub (c : CoreId) (d a b : GReg) (w : Bool) (lf : R3)
  | qmul (c : CoreId) (d a b : GReg) (w : Bool) (lf : R3)
  | qfma (c : CoreId) (d a b : GReg) (w : Bool) (lf : R3)
  | qmin (c : CoreId) (d a b : GReg) (w : Bool) (lf : R3)
  | qmax (c : CoreId) (d a b : GReg) (w : Bool) (lf : R3)
  | qand (c : CoreId) (d a b : GReg) (w : Bool) (lf : R3)
  | qor (c : CoreId) (d a b : GReg) (w : Bool) (lf : R3)
  | qxor (c : CoreId) (d a b : GReg) (w : Bool) (lf : R3)
  | qcmul (c : CoreId) (d a b : GReg) (w : Bool) (lf : R3)
  | qcmac (c : CoreId) (d a b : GReg) (w : Bool) (lf : R3)
  | qconj (c : CoreId) (d a : GReg) (w : Bool) (lf : R3)
  | qcmpeq (c : CoreId) (d a b : GReg) (w : Bool) (lf : R3)
  | qcmplt (c : CoreId) (d a b : GReg) (w : Bool) (lf : R3)
  | qcmple (c : CoreId) (d a b : GReg) (w : Bool) (lf : R3)
  | qcmpun (c : CoreId) (d a b : GReg) (w : Bool) (lf : R3)
  | qdup (c : CoreId) (d a : GReg) (w : Bool) (lf : R3)
  | qswap (c : CoreId) (d a : GReg) (w : Bool) (lf : R3)
  | bset (x : CoreRun) (a : GReg) (off : BitVec 13)
  | bclr (x : CoreRun) (a : GReg) (off : BitVec 13)
  | btst (c : CoreId) (d a : GReg) (off : BitVec 13)
  | btas (c : CoreId) (d a : GReg) (off : BitVec 13)
  | bwait0 (c : CoreId) (a : GReg) (off : BitVec 13) (tm : GReg)
  | bwait1 (c : CoreId) (a : GReg) (off : BitVec 13) (tm : GReg)
  | bwaitTimeout (c : CoreId)
  | crr (c : CoreId) (d a : GReg) (off : BitVec 15)
  | crw (c : CoreId) (a b : GReg) (off : BitVec 15)
  | sld (x : CoreRun) (n m : R3) (a : GReg) (off : Byte)
  | sst (c : CoreId) (m : R3) (a : GReg) (off : Byte) (n : R3)
  | srd (c : CoreId) (d : GReg) (n : R3) (part : BitVec 2)
  | cwb (c : CoreId) (m : R3) (a : GReg) (up : Upset)
  | cinv (x : CoreRun) (m : R3) (a : GReg)
  | cwbi (x : CoreRun) (m : R3) (a : GReg)
  | cpf (c : CoreId) (m : R3) (a : GReg)
  | fence (x : CoreRun)
  | isync (c : CoreId)
  | waitQ (t : TId) (mask : BitVec 6)
  | qsync (t : TId) (dst : R3) (mask : BitVec 6)
  | trap (c : CoreId) (imm : Half)
  | eret (c : CoreId)
  | done (x : CoreRun)
  | halt (c : CoreId)
  | nop (c : CoreId)
  | exceptionEntry (t : TId)
  | interruptEntry (t : TId)
  | watchdogExpiry (t : TId)
  | sampleRecord (t : TId) (resp : Resp)
  | twrWdog (t : TId) (v : Dword)
  | twrSmpCtrl (t : TId) (v : Dword)
  | twrDoorbell (t : TId) (v : Dword)
  | l1FillComplete (c : CoreId) (up : Upset)
  | storeBufferDrain (c : CoreId) (up : Upset)
  | writebackErrorResponse (t : TId) (line : BitVec 45) (hostErr : Bool)
  -- access engines and device memory (11_access_engines_and_memory.md)
  | stCopy (t : TId) (is : Issue) (k : BitVec 4) (sd : R3) (gd : GReg) (ss : R3) (gs : GReg)
  | stShp (t : TId) (is : Issue) (k : BitVec 4) (p q : GReg)
  | stFill (t : TId) (is : Issue) (k : BitVec 4) (sd : R3) (gd : GReg) (gv : GReg)
  | stSig (t : TId) (is : Issue) (k : BitVec 4) (a : GReg) (off : BitVec 11)
  | streamDescriptorComplete (t : TId) (k : BitVec 4)
  | requestCompletion (t : TId) (tag : BitVec 13)
  | memoryRequest (t : TId) (write : Bool) (lpa : BitVec 45) (data : List Byte) (ecc : EccResult) (crcFails : BitVec 3)
  | deviceNotAnswering (dev : BitVec 5) (silent : Bool)
  | deviceMigrationPage
  | driftTracking (dev : BitVec 5) (chan : BitVec 2) (ok : Bool)
  | scrubRead (lpa : BitVec 45) (ecc : EccResult)
  | hostErrorCompletion (t : TId) (tag : BitVec 13)
  | hostWindowTimeout (t : TId) (tag : BitVec 13)
  -- translation (12_translation.md)
  | tableWalk (t : TId) (req : Requester) (acc : Access) (walk : WalkRequest)
  | faultRecordWrite (resp : Resp)
  | fqResolveRetry (id : Word)
  | fqResolveAbort (id : Word)
  | xltCtrl (v : Dword)
  | xltRootn (n : Byte) (v : Dword)
  | invalidationGo (v : Dword)
  | invalidationComplete
  | xltPfreq (t : TId) (v : Dword)
  | migratePage
  -- fabric (13_gwearo_fabric.md)
  | portTrainingComplete (p : BitVec 5) (partner : BitVec 12) (pport : BitVec 5) (bad : Byte)
  | absentRetry (p : BitVec 5)
  | linkFrame (p : BitVec 5) (f : Frame)
  | ackTimeout (p : BitVec 5)
  | errorRateCheck (p : BitVec 5) (frames : Nat)
  | portRetrain (p : BitVec 5) (lanes : LaneReport)
  | retrainComplete (p : BitVec 5)
  | portDownHandover (p : BitVec 5) (accepted : BitVec 12)
  | downRetry (p : BitVec 5)
  | portLossNoSibling (x : PortLoss)
  | gwlPortRetire (p : BitVec 5)
  | packetRoute (inDir : BitVec 3) (pk : Packet)
  | read (pk : Packet)
  | write (pk : Packet)
  | data (pk : Packet)
  | accept (pk : Packet)
  | refused (pk : Packet)
  | error (pk : Packet)
  | remoteTimeout (t : TId) (tag : BitVec 13)
  | collUp (m : CollMsg)
  | collDown (m : CollMsg)
  | heldUpwardRelease (slot : BitVec 9)
  | align (pk : Packet) (kind : AlignKind) (now : Dword) (t1 t2 t3 : Dword) (parentRoll : Dword)
  -- Wennum, channels and steps (14_channels_and_steps.md)
  | smbusPacket (op : Half) (w : Wennum) (f : SmbFrame)
  | smbusReply (f : SmbFrame)
  | smbusData (f : SmbFrame)
  | keepAdmProd (v : Dword)
  | keepAdmCtrl (v : Dword)
  | adminReplyWrite (ans : ReplyAns)
  | ident (p : Path) (w : Wennum)
  | modStatus (p : Path) (w : Wennum)
  | logRead (p : Path) (w : Wennum)
  | chanCreate (p : Path) (w : Wennum)
  | chanDestroy (p : Path) (w : Wennum)
  | chanSet (p : Path) (w : Wennum)
  | chanAbort (p : Path) (w : Wennum)
  | chanRing (p : Path) (w : Wennum)
  | chanQuery (p : Path) (w : Wennum)
  | capSet (p : Path) (w : Wennum)
  | energyQuery (p : Path) (w : Wennum)
  | rollReport (p : Path) (w : Wennum)
  | migrate (p : Path) (w : Wennum)
  | collBind (p : Path) (w : Wennum)
  | collUnbind (p : Path) (w : Wennum)
  | fwStage (p : Path) (w : Wennum)
  | fwStageDone (flashOk : Bool)
  | fwActivate (p : Path) (w : Wennum)
  | attest (p : Path) (w : Wennum)
  | attestSigned
  | relayout (p : Path) (w : Wennum)
  | unretire (p : Path) (w : Wennum)
  | reset (p : Path) (w : Wennum)
  | keepDbn (n : BitVec 14) (v : Dword)
  | descriptorConsume (n : BitVec 14) (ans : DescAns)
  | keepCfg (v : Dword)
  | contextSave (x : TowerRun)
  | contextRestore (t : TId) (err : Bool)
  -- reliability (16_reliability_and_ageing.md)
  | towerSelfTest (t : TId) (r : TestResult)
  | monitorSample (region : BitVec 5) (slack : List Nat) (short : List Nat)
  | leaderOverrunWatchdog
  | moduleFault
  | telemetryRecord
  | eventRecordProgram
  | flashRecordProgram
  -- power (15_power_and_thermal.md)
  | thermalGuard (region : BitVec 5) (temp : Byte)
  | thermTrip (temp : Byte)
  | deviceOverheat (dev : BitVec 5) (temp : Byte)
  | pwrAlertAssert
  | pwrAlertDeassert
  | droopStretch (region : BitVec 5) (mv : Byte)
  | droopStretchEnd (region : BitVec 5) (x : StretchEnd)
  | pwrFill (v : Dword)
  | pwrDroopCfg (v : Dword)
  -- start-up and host attach (17_host_attach_and_startup.md)
  | memCfg (v : Dword)
  | powerUpReset (env : BootEnv)
  | readyAssert (ms : Half)
  | pwrGoodFall
  | bootWatchdog
  | hstReset (v : Dword)
  | identityResponderTakeover
  | tapExtest
  | tapClamp
  | tapBypass
  | tapIdcode
  | tapSamplePreload
  | hostRead (lpa : BitVec 45) (n : Nat)
  | hostWrite (lpa : BitVec 45) (bytes : List Byte)
  | ucieModuleDown (n : BitVec 2)
  | ucieRetrainRetry (n : BitVec 2) (x : UcieTraining)
  | hstIrqEoi (v : Dword)
  | registerWrite (lpa : BitVec 45) (size : RegSize) (v : Dword)
  | portAbsent (p : BitVec 5)
  | smbusPacketAnswered
deriving DecidableEq, Repr

end Sys2Proof
end

