-- ==== Sys2Proof/Config.lean ====
section
/-! DEFINITION. What an implementation fixes and the spec leaves open, as constants without a body: no proof can see a
value of theirs. Each is named in the assumption log. -/

namespace Sys2Proof.Config

/-- A fresh free value: the n-th one drawn, with `n` the State's own counter `fresh` (log entry 6). -/
opaque freeWord : Nat → Dword

/-- Which representable value within the ulp bound of R189 a transcendental returns, as an index into the candidates,
by function code, working-format code and operand bits: the same operands give the same value everywhere (R189; log entry 16). -/
opaque ulpPick : Nat → Nat → Nat → Nat

/-- Predicted module power in W for a list of 32 operating points, in the roll with this number, with the Towers of
the flagged steps held (R483, R486; log entry 14). -/
opaque predictedPower : Nat → List Nat → Bool → Nat

/-- Predicted Tower-rail current in A of a die for a list of 32 operating points (R483, R493; log entry 14). -/
opaque predictedCurrent : Nat → List Nat → Bool → Nat

/-- The position the Keep gives a Tower in its own choice of free Towers (R465; log entry 15). -/
opaque placeRank : Nat → Nat → Nat

/-- The signature under the sealed identity key (R544, R553; log entry 17). -/
opaque identitySign : List Byte → List Byte

/-- Hash of the root key burnt into the fuses at manufacture (R544; log entry 17). -/
opaque rootKeyHash : List Byte

/-- SHA-512 of the boot ROM and of the identity public key, and the certificate chain (R553, R554; log entry 17). -/
opaque romHash : List Byte
opaque keyId : List Byte
opaque certChain : List Byte

/-- Fuses and manufacture data of this module: which of the four ordering codes it has (R3), serial number, manufacture date
(R550; log entry 3). -/
opaque orderIndex : Fin 4
opaque serial : List Byte
opaque mfgDate : Word

/-- SIGN bit of the transfer record of a NaN lane, which R113 gives no meaning (log entry 25). -/
opaque nanLaneSign : Bool

/-- Result of a Turret table lookup whose operands R188 gives no value for: function, working format, operand bits
(log entry 26). -/
opaque tableOpen : Nat → Nat → Nat → Nat

/-- Training version of a firmware image, by its header (R367; log entry 3). -/
opaque trainVersion : List Byte → Nat

/-- The address space in which a Keep core's descriptor with PHYS = 0 is translated, which no rule names (R373; log entry
41). -/
opaque keepAsid : Nat

/-- The set of the 8-way L2 TLB that a leaf falls into: ASID, level, DVA above the page offset (R382; log entry 11). -/
opaque l2Set : Nat → Nat → Nat → Nat

/-- Which of several different NaNs a row's maximum or minimum gives (R185): by working format and the set of them (log
entry 26). -/
opaque rowNan : Nat → List Nat → Nat

/-- The first 16 bytes of a collective message, whose fields R432 names without their places: slot, direction, generation,
group, and stamp (log entry 35). -/
opaque collHeader : List Nat → List Byte

end Sys2Proof.Config
end

