-- ==== Sys2Proof/Machine/Tab.lean ====
section
/-! DEFINITION. Sparse tables keyed by natural numbers, in one canonical form: keys strictly rising and, for tables
written with `Tab.put`, no entry equal to what an unlisted key reads as. -/

namespace Sys2Proof.Machine

/-- A sparse table: entries sorted by key. What an unlisted key reads as is given at each use. -/
abbrev Tab (α : Type) := List (Nat × α)

/-- The value at key `k`; `d` where the key is not listed. -/
def Tab.get {α : Type} (d : α) : Tab α → Nat → α
  | [], _ => d
  | (j, v) :: t, k => if k = j then v else if k < j then d else Tab.get d t k

/-- Sets key `k` to `v`, keeping the keys rising. -/
def Tab.set {α : Type} : Tab α → Nat → α → Tab α
  | [], k, v => [(k, v)]
  | (j, w) :: t, k, v =>
    if k = j then (k, v) :: t else if k < j then (k, v) :: (j, w) :: t else (j, w) :: Tab.set t k v

/-- Removes key `k`. -/
def Tab.del {α : Type} : Tab α → Nat → Tab α
  | [], _ => []
  | (j, w) :: t, k => if k = j then t else if k < j then (j, w) :: t else (j, w) :: Tab.del t k

/-- Writes key `k`: storing the default removes the entry, so that equal tables are equal data. -/
def Tab.put {α : Type} [DecidableEq α] (d : α) (t : Tab α) (k : Nat) (v : α) : Tab α :=
  if v = d then Tab.del t k else Tab.set t k v

/-- Whether key `k` is listed. -/
def Tab.has {α : Type} : Tab α → Nat → Bool
  | [], _ => false
  | (j, _) :: t, k => if k = j then true else if k < j then false else Tab.has t k

/-- The value at key `k`, none where the key is not listed. -/
def Tab.find {α : Type} : Tab α → Nat → Option α
  | [], _ => none
  | (j, v) :: t, k => if k = j then some v else if k < j then none else Tab.find t k

/-- Keys strictly rising from a lower bound. -/
def Tab.sortedFrom {α : Type} : Nat → Tab α → Bool
  | _, [] => true
  | b, (j, _) :: t => decide (b ≤ j) && Tab.sortedFrom (j + 1) t

/-- The canonical form: keys strictly rising, no entry equal to the default. -/
def Tab.wf {α : Type} [DecidableEq α] (d : α) (t : Tab α) : Bool :=
  Tab.sortedFrom 0 t && t.all (fun e => decide (e.2 ≠ d))

/-- The keys `lo` to `lo + n - 1`, in order. -/
def range (lo n : Nat) : List Nat := (List.range n).map (lo + ·)

/-- Writes consecutive keys from `k`. -/
def Tab.putAll {α : Type} [DecidableEq α] (d : α) : Tab α → Nat → List α → Tab α
  | t, _, [] => t
  | t, k, v :: vs => Tab.putAll d (Tab.put d t k v) (k + 1) vs

/-- Sets consecutive keys from `k`. -/
def Tab.setAll {α : Type} : Tab α → Nat → List α → Tab α
  | t, _, [] => t
  | t, k, v :: vs => Tab.setAll (Tab.set t k v) (k + 1) vs

/-- Reads `n` consecutive keys from `k`. -/
def Tab.getAll {α : Type} (d : α) (t : Tab α) (k n : Nat) : List α :=
  (range k n).map (Tab.get d t)

/-- Keeps the entries whose key satisfies `p`. -/
def Tab.keep {α : Type} (t : Tab α) (p : Nat → Bool) : Tab α := t.filter (fun e => p e.1)

end Sys2Proof.Machine
end

