-- ==== Sys2Proof/Machine/Sha.lean ====
section
/-! DEFINITION. SHA-512 (FIPS 180-4) and RSASSA-PSS verification with SHA-512, MGF1 with SHA-512 and a 64-byte salt (RFC 8017): the
standard functions that R544–R546 and R553 name. -/

namespace Sys2Proof.Machine

/-! SHA-512. -/

/-- Round constants: the first 64 fraction bits of the cube roots of the first 80 primes. -/
def shaK : List Dword :=
  [0x428a2f98d728ae22, 0x7137449123ef65cd, 0xb5c0fbcfec4d3b2f, 0xe9b5dba58189dbbc,
   0x3956c25bf348b538, 0x59f111f1b605d019, 0x923f82a4af194f9b, 0xab1c5ed5da6d8118,
   0xd807aa98a3030242, 0x12835b0145706fbe, 0x243185be4ee4b28c, 0x550c7dc3d5ffb4e2,
   0x72be5d74f27b896f, 0x80deb1fe3b1696b1, 0x9bdc06a725c71235, 0xc19bf174cf692694,
   0xe49b69c19ef14ad2, 0xefbe4786384f25e3, 0x0fc19dc68b8cd5b5, 0x240ca1cc77ac9c65]
  ++ [0x2de92c6f592b0275, 0x4a7484aa6ea6e483, 0x5cb0a9dcbd41fbd4, 0x76f988da831153b5,
   0x983e5152ee66dfab, 0xa831c66d2db43210, 0xb00327c898fb213f, 0xbf597fc7beef0ee4,
   0xc6e00bf33da88fc2, 0xd5a79147930aa725, 0x06ca6351e003826f, 0x142929670a0e6e70,
   0x27b70a8546d22ffc, 0x2e1b21385c26c926, 0x4d2c6dfc5ac42aed, 0x53380d139d95b3df,
   0x650a73548baf63de, 0x766a0abb3c77b2a8, 0x81c2c92e47edaee6, 0x92722c851482353b]
  ++ [0xa2bfe8a14cf10364, 0xa81a664bbc423001, 0xc24b8b70d0f89791, 0xc76c51a30654be30,
   0xd192e819d6ef5218, 0xd69906245565a910, 0xf40e35855771202a, 0x106aa07032bbd1b8,
   0x19a4c116b8d2d0c8, 0x1e376c085141ab53, 0x2748774cdf8eeb99, 0x34b0bcb5e19b48a8,
   0x391c0cb3c5c95a63, 0x4ed8aa4ae3418acb, 0x5b9cca4f7763e373, 0x682e6ff3d6b2b8a3,
   0x748f82ee5defb2fc, 0x78a5636f43172f60, 0x84c87814a1f0ab72, 0x8cc702081a6439ec]
  ++ [0x90befffa23631e28, 0xa4506cebde82bde9, 0xbef9a3f7b2c67915, 0xc67178f2e372532b,
   0xca273eceea26619c, 0xd186b8c721c0c207, 0xeada7dd6cde0eb1e, 0xf57d4f7fee6ed178,
   0x06f067aa72176fba, 0x0a637dc5a2c898a6, 0x113f9804bef90dae, 0x1b710b35131c471b,
   0x28db77f523047d84, 0x32caab7b40c72493, 0x3c9ebe0a15c9bebc, 0x431d67c49c100d4c,
   0x4cc5d4becb3e42b6, 0x597f299cfc657e2a, 0x5fcb6fab3ad6faec, 0x6c44198c4a475817]

/-- First hash value: the first 64 fraction bits of the square roots of the first eight primes. -/
def shaH : List Dword :=
  [0x6a09e667f3bcc908, 0xbb67ae8584caa73b, 0x3c6ef372fe94f82b, 0xa54ff53a5f1d36f1,
   0x510e527fade682d1, 0x9b05688c2b3e6c1f, 0x1f83d9abfb41bd6b, 0x5be0cd19137e2179]

/-- Big-endian octets of a number, and the number of big-endian octets. -/
def beBytes (n v : Nat) : List Byte := (leBytes n v).reverse
def beNat (bs : List Byte) : Nat := bs.foldl (fun a b => a * 256 + b.toNat) 0

def shaS0 (x : Dword) : Dword := x.rotateRight 1 ^^^ x.rotateRight 8 ^^^ (x >>> 7)
def shaS1 (x : Dword) : Dword := x.rotateRight 19 ^^^ x.rotateRight 61 ^^^ (x >>> 6)
def shaE0 (x : Dword) : Dword := x.rotateRight 28 ^^^ x.rotateRight 34 ^^^ x.rotateRight 39
def shaE1 (x : Dword) : Dword := x.rotateRight 14 ^^^ x.rotateRight 18 ^^^ x.rotateRight 41

/-- Words of a message block, 64 bits each. -/
def shaWords (block : List Byte) : List Dword :=
  (List.range 16).map (fun i => BitVec.ofNat 64 (beNat ((block.drop (8 * i)).take 8)))

/-- The message schedule, from its last 16 words, the newest first: `n` further words. -/
def shaSchedule : Nat → List Dword → List Dword → List Dword
  | 0, _, out => out.reverse
  | n + 1, last, out =>
    let at' := fun (i : Nat) => (last[i]?).getD 0
    let w := shaS1 (at' 1) + at' 6 + shaS0 (at' 14) + at' 15
    shaSchedule n (w :: last.take 15) (w :: out)

/-- The eight working variables. -/
structure ShaVars where
  a : Dword
  b : Dword
  c : Dword
  d : Dword
  e : Dword
  f : Dword
  g : Dword
  h : Dword
deriving DecidableEq, Repr

/-- A round, for a constant and a schedule word. -/
def ShaVars.round (v : ShaVars) (kw : Dword × Dword) : ShaVars :=
  let t1 := v.h + shaE1 v.e + ((v.e &&& v.f) ^^^ (~~~v.e &&& v.g)) + kw.1 + kw.2
  let t2 := shaE0 v.a + ((v.a &&& v.b) ^^^ (v.a &&& v.c) ^^^ (v.b &&& v.c))
  ⟨t1 + t2, v.a, v.b, v.c, v.d + t1, v.e, v.f, v.g⟩

def ShaVars.ofList (l : List Dword) : ShaVars :=
  let at' := fun (i : Nat) => (l[i]?).getD 0
  ⟨at' 0, at' 1, at' 2, at' 3, at' 4, at' 5, at' 6, at' 7⟩
def ShaVars.toList (v : ShaVars) : List Dword := [v.a, v.b, v.c, v.d, v.e, v.f, v.g, v.h]

/-- The compression of a block into the hash value. -/
def shaBlock (hash : List Dword) (block : List Byte) : List Dword :=
  let w := shaWords block
  let sched := w ++ shaSchedule 64 w.reverse []
  let v := (shaK.zip sched).foldl ShaVars.round (ShaVars.ofList hash)
  (hash.zip v.toList).map (fun e => e.1 + e.2)

/-- Blocks of 128 bytes, `n` of them. -/
def shaBlocks : Nat → List Byte → List Dword → List Dword
  | 0, _, hash => hash
  | n + 1, bs, hash => shaBlocks n (bs.drop 128) (shaBlock hash (bs.take 128))

/-- A message padded to whole blocks. -/
def shaPad (bs : List Byte) : List Byte :=
  bs ++ [0x80] ++ List.replicate ((239 - bs.length % 128) % 128) 0 ++ beBytes 16 (8 * bs.length)

/-- SHA-512 of bytes. -/
def sha512 (bs : List Byte) : List Byte :=
  let m := shaPad bs
  (shaBlocks (m.length / 128) m shaH).flatMap (fun w => beBytes 8 w.toNat)

/-! RSASSA-PSS. -/

/-- MGF1: a mask of `n` bytes from a seed. -/
def mgf1 (seed : List Byte) (n : Nat) : List Byte :=
  ((List.range (ceilDiv n 64)).flatMap (fun i => sha512 (seed ++ beBytes 4 i))).take n

/-- `x` to the power `e`, modulo `m`, for an exponent of at most `bits` bits. -/
def powMod (m : Nat) : Nat → Nat → Nat → Nat
  | 0, _, _ => 1 % m
  | bits + 1, x, e =>
    let r := powMod m bits (x * x % m) (e / 2)
    if e % 2 = 1 then r * x % m else r

/-- Bytes of a range are all zero. -/
def zeroAt (bs : List Byte) (o n : Nat) : Bool := ((bs.drop o).take n).all (fun b => decide (b = 0))

/-- Verification of an encoded message of `bits` bits (EMSA-PSS-VERIFY, salt of 64 bytes). -/
def pssVerify (hash em : List Byte) (bits : Nat) : Bool :=
  let db := em.take (em.length - 65)
  let h := (em.drop (em.length - 65)).take 64
  let spare := 8 * em.length - bits
  let top := fun (b : Byte) => b.toNat % 2 ^ (8 - spare)
  let plain := (db.zip (mgf1 h (em.length - 65))).map (fun e => e.1 ^^^ e.2)
  let plain := match plain with
    | b :: r => BitVec.ofNat 8 (top b) :: r
    | [] => []
  let zeros := em.length - 130
  decide (130 ≤ em.length) && decide ((em.getLastD 0).toNat = 0xBC)
    && (db.take 1).all (fun b => decide (b.toNat = top b))
    && zeroAt plain 0 zeros && decide (leAt plain zeros 1 = 1)
    && decide (sha512 (List.replicate 8 0 ++ hash ++ plain.drop (zeros + 1)) = h)

/-- RSASSA-PSS verification of R545: a key is a modulus of 512 bytes and an exponent of four, a signature has 512 bytes; the three are
numbers with the least significant byte first (R11; log entry 17). -/
def rsaVerify (key msg sig : List Byte) : Bool :=
  let n := leAt key 0 512
  let e := leAt key 512 4
  let x := leAt sig 0 512
  let bits := n.log2
  let len := ceilDiv bits 8
  let m := powMod n 32 x e
  decide (0 < n) && decide (x < n) && decide (m < 256 ^ len) && pssVerify (sha512 msg) (beBytes len m) bits

end Sys2Proof.Machine
end

