-- ==== Sys2Proof/Machine/Fp.lean ====
section
/-! DEFINITION. Number formats, rounding, flags, conversions and IEEE arithmetic (03_number_formats.md). Values are
exact dyadic numbers; every operation forms its exact result and rounds it once (R96). -/

namespace Sys2Proof.Machine

/-- Exception flags in the order of R85, and saturations counted (R100–R105). -/
structure Fl where
  nv : Bool := false
  dz : Bool := false
  ofl : Bool := false
  uf : Bool := false
  nx : Bool := false
  sat : Nat := 0
deriving DecidableEq, Repr

def Fl.or (a b : Fl) : Fl :=
  ⟨a.nv || b.nv, a.dz || b.dz, a.ofl || b.ofl, a.uf || b.uf, a.nx || b.nx, a.sat + b.sat⟩

/-- The five flag bits of R85. -/
def Fl.bits (f : Fl) : Nat := 16 * b2n f.nv + 8 * b2n f.dz + 4 * b2n f.ofl + 2 * b2n f.uf + b2n f.nx

/-- Families of floating formats: IEEE-like with infinities; pip16, whose NaNs are all quiet; pip8 without infinities. -/
inductive FKind where
  | ieee | pip16 | pip8
deriving DecidableEq, Repr

/-- A floating format (R71, R79, R170). -/
structure FFmt where
  ebits : Nat
  fbits : Nat
  bias : Nat
  kind : FKind
deriving DecidableEq, Repr

def FFmt.b32 : FFmt := ⟨8, 23, 127, .ieee⟩
def FFmt.b64 : FFmt := ⟨11, 52, 1023, .ieee⟩
def FFmt.pip8a : FFmt := ⟨4, 3, 7, .pip8⟩
def FFmt.pip8b : FFmt := ⟨5, 2, 15, .pip8⟩
def FFmt.pip16 : FFmt := ⟨6, 9, 31, .pip16⟩
/-- The short working format (R169, R170). -/
def FFmt.short : FFmt := ⟨8, 10, 127, .ieee⟩

/-- Bits of an encoding. -/
def FFmt.width (F : FFmt) : Nat := 1 + F.ebits + F.fbits
/-- The magnitude encoding of infinity, for formats that have one. -/
def FFmt.infEnc (F : FFmt) : Nat := (2 ^ F.ebits - 1) * 2 ^ F.fbits
/-- The magnitude encoding of the largest finite value. -/
def FFmt.maxEnc (F : FFmt) : Nat := match F.kind with
  | .pip8 => 2 ^ (F.ebits + F.fbits) - 1
  | _ => F.infEnc - 1
/-- Largest exponent of a finite value. -/
def FFmt.emax (F : FFmt) : Int := match F.kind with
  | .pip8 => (2 ^ F.ebits : Int) - 1 - F.bias
  | _ => (2 ^ F.ebits : Int) - 2 - F.bias
/-- Exponent of the least significant bit of a subnormal. -/
def FFmt.qmin (F : FFmt) : Int := 1 - F.bias - F.fbits

/-- What an encoding stands for: a NaN with sign, signalling mark and payload below the quiet bit; an infinity; or the
finite value (−1)^neg × m × 2^e. -/
inductive Val where
  | nan (neg sig : Bool) (pay : Nat)
  | inf (neg : Bool)
  | fin (neg : Bool) (m : Nat) (e : Int)
deriving DecidableEq, Repr

/-- Sign and magnitude joined. -/
def FFmt.join (F : FFmt) (neg : Bool) (mag : Nat) : Nat := b2n neg * 2 ^ (F.ebits + F.fbits) + mag

/-- The value of an encoding (R72–R79). -/
def FFmt.dec (F : FFmt) (x : Nat) : Val :=
  let x := x % 2 ^ F.width
  let neg := decide (2 ^ (F.ebits + F.fbits) ≤ x)
  let mag := x % 2 ^ (F.ebits + F.fbits)
  let ex := mag / 2 ^ F.fbits
  let fr := mag % 2 ^ F.fbits
  let fin := if ex = 0 then Val.fin neg fr F.qmin
    else Val.fin neg (2 ^ F.fbits + fr) (F.qmin + (ex - 1 : Nat))
  match F.kind with
  | .pip8 => if neg ∧ mag = 0 then .nan false false 0 else fin
  | k =>
    if mag = F.infEnc then .inf neg
    else if F.infEnc < mag then
      if k = .pip16 then .nan neg false 0
      else .nan neg (decide (fr < 2 ^ (F.fbits - 1))) (fr % 2 ^ (F.fbits - 1))
    else fin

/-- A quiet NaN of the format (R76, R79, R90). -/
def FFmt.qnan (F : FFmt) (neg : Bool) (pay : Nat) : Nat := match F.kind with
  | .pip8 => 2 ^ (F.ebits + F.fbits)
  | .pip16 => F.join neg (F.infEnc + 2 ^ (F.fbits - 1))
  | .ieee => F.join neg (F.infEnc + 2 ^ (F.fbits - 1) + pay % 2 ^ (F.fbits - 1))

/-- The default NaN (R79, R170). -/
def FFmt.dnan (F : FFmt) : Nat := F.qnan false 0

/-- A zero of a sign; pip8 has +0 only (R77). -/
def FFmt.zero (F : FFmt) (neg : Bool) : Nat := if F.kind = .pip8 then 0 else F.join neg 0

/-- Rounds m × 2^e, plus something below one unit of m where `st`, to a multiple of 2^q: the multiple and whether it is
inexact (R82, R84). -/
def roundAt (rm : Rm) (neg : Bool) (m : Nat) (e : Int) (st : Bool) (q : Int) : Nat × Bool :=
  if q ≤ e then (m * 2 ^ (e - q).toNat, st)
  else
    let sh := (q - e).toNat
    let k := m / 2 ^ sh
    let r := m % 2 ^ sh
    let half := 2 ^ (sh - 1)
    let inx := decide (r ≠ 0) || st
    let up := match rm with
      | .rne => decide (half < r) || (decide (r = half) && (st || decide (k % 2 = 1)))
      | .rna => decide (half ≤ r)
      | .rtz => false
      | .rdn => inx && neg
      | .rup => inx && !neg
      | .dyn => false
    (if up then k + 1 else k, inx)

/-- Overflow of a finite value of a sign (R98–R100). -/
def FFmt.overflow (F : FFmt) (rm : Rm) (p16inf neg : Bool) : Nat × Fl :=
  let away := match rm with
    | .rne | .rna => true
    | .rup => !neg
    | .rdn => neg
    | _ => false
  let hasInf := match F.kind with
    | .ieee => true
    | .pip16 => p16inf
    | .pip8 => false
  let counts := decide (F.kind ≠ .ieee)
  if hasInf && away then (F.join neg F.infEnc, { ofl := true, nx := true })
  else (F.join neg F.maxEnc, { ofl := true, nx := true, sat := b2n counts })

/-- Rounds (−1)^neg × (m + θ) × 2^e, 0 < θ < 1 where `st`, once to the format: R89, R98, R103. -/
def FFmt.round (F : FFmt) (rm : Rm) (p16inf neg : Bool) (m : Nat) (e : Int) (st : Bool := false) : Nat × Fl :=
  if m = 0 ∧ st = false then (F.zero neg, {})
  else
    let E : Int := (bitLen m : Int) - 1 + e
    let qu := E - F.fbits
    let (ku, _) := roundAt rm neg m e st qu
    let Eu := if ku = 2 ^ (F.fbits + 1) then E + 1 else E
    if F.emax < Eu then F.overflow rm p16inf neg
    else
      let q := max qu F.qmin
      let (k, inx) := roundAt rm neg m e st q
      let enc := k + (q - F.qmin).toNat * 2 ^ F.fbits
      let tiny := decide (Eu < 1 - (F.bias : Int))
      (if enc = 0 then F.zero neg else F.join neg enc, { uf := tiny && inx, nx := inx })

/-- A signed dyadic as an integer times 2^e. -/
def signed (neg : Bool) (m : Nat) : Int := if neg then -(m : Int) else m

/-- Sum of two signed dyadics: integer and exponent. -/
def addDy (a : Int × Int) (b : Int × Int) : Int × Int :=
  if a.1 = 0 then b else if b.1 = 0 then a else
  let e := min a.2 b.2
  (a.1 * 2 ^ (a.2 - e).toNat + b.1 * 2 ^ (b.2 - e).toNat, e)

/-- Rounds a signed dyadic; an exact zero takes the sign given. -/
def FFmt.roundInt (F : FFmt) (rm : Rm) (p16inf zneg : Bool) (v : Int × Int) : Nat × Fl :=
  if v.1 = 0 then (F.zero zneg, {}) else F.round rm p16inf (decide (v.1 < 0)) v.1.natAbs v.2

def Val.isNan : Val → Bool
  | .nan .. => true
  | _ => false
def Val.isSig : Val → Bool
  | .nan _ s _ => s
  | _ => false
def Val.isZero : Val → Bool
  | .fin _ m _ => decide (m = 0)
  | _ => false
def Val.neg : Val → Bool
  | .nan n _ _ => n
  | .inf n => n
  | .fin n _ _ => n
/-- The value with its sign changed. -/
def Val.flip : Val → Val
  | .nan n s p => .nan n s p
  | .inf n => .inf (!n)
  | .fin n m e => .fin (!n) m e

/-- The NaN result where an operand is a NaN: the first NaN operand, quiet; NV for a signalling one (R90, R92). -/
def FFmt.nanOf (F : FFmt) (ops : List Val) : Option (Nat × Fl) :=
  match ops.find? Val.isNan with
  | some (.nan n _ p) => some (F.qnan n p, { nv := ops.any Val.isSig })
  | _ => none

/-- An invalid operation on operands that are not NaNs (R90). -/
def FFmt.invalid (F : FFmt) : Nat × Fl := (F.dnan, { nv := true })

/-- a + b. -/
def FFmt.addV (F : FFmt) (rm : Rm) (pi : Bool) (a b : Val) : Nat × Fl :=
  match F.nanOf [a, b] with
  | some r => r
  | none => match a, b with
    | .inf x, .inf y => if x = y then (F.join x F.infEnc, {}) else F.invalid
    | .inf x, _ => (F.join x F.infEnc, {})
    | _, .inf y => (F.join y F.infEnc, {})
    | .fin x m e, .fin y n f =>
      let z := if m = 0 ∧ n = 0 then (if x = y then x else decide (rm = .rdn)) else decide (rm = .rdn)
      F.roundInt rm pi z (addDy (signed x m, e) (signed y n, f))
    | _, _ => F.invalid

/-- a × b. -/
def FFmt.mulV (F : FFmt) (rm : Rm) (pi : Bool) (a b : Val) : Nat × Fl :=
  match F.nanOf [a, b] with
  | some r => r
  | none =>
    let s := a.neg != b.neg
    match a, b with
    | .fin _ m e, .fin _ n f => F.round rm pi s (m * n) (e + f)
    | x, y => if x.isZero || y.isZero then F.invalid else (F.join s F.infEnc, {})

/-- a × b + c, rounded once (R90, R91). -/
def FFmt.fmaV (F : FFmt) (rm : Rm) (pi : Bool) (a b c : Val) : Nat × Fl :=
  match F.nanOf [a, b, c] with
  | some r => r
  | none =>
    let s := a.neg != b.neg
    match a, b, c with
    | .fin _ m e, .fin _ n f, .fin z k g =>
      let zs := if m * n = 0 ∧ k = 0 then (if s = z then s else decide (rm = .rdn)) else decide (rm = .rdn)
      F.roundInt rm pi zs (addDy (signed s (m * n), e + f) (signed z k, g))
    | .fin _ _ _, .fin _ _ _, .inf z => (F.join z F.infEnc, {})
    | x, y, z =>
      if x.isZero || y.isZero then F.invalid
      else match z with
        | .inf w => if w = s then (F.join s F.infEnc, {}) else F.invalid
        | _ => (F.join s F.infEnc, {})

/-- a / b. -/
def FFmt.divV (F : FFmt) (rm : Rm) (pi : Bool) (a b : Val) : Nat × Fl :=
  match F.nanOf [a, b] with
  | some r => r
  | none =>
    let s := a.neg != b.neg
    match a, b with
    | .inf _, .inf _ => F.invalid
    | .inf _, _ => (F.join s F.infEnc, {})
    | _, .inf _ => (F.zero s, {})
    | .fin _ m e, .fin _ n f =>
      if n = 0 then (if m = 0 then F.invalid else (F.join s F.infEnc, { dz := true }))
      else if m = 0 then (F.zero s, {})
      else
        let k := F.fbits + 4 + bitLen n
        F.round rm pi s (m * 2 ^ k / n) (e - f - k) (decide (m * 2 ^ k % n ≠ 0))
    | _, _ => F.invalid

/-- Integer square root, one result bit for each unit of fuel. -/
def isqrt : Nat → Nat → Nat → Nat
  | 0, _, r => r
  | i + 1, n, r => if (r + 2 ^ i) * (r + 2 ^ i) ≤ n then isqrt i n (r + 2 ^ i) else isqrt i n r

/-- √a. -/
def FFmt.sqrtV (F : FFmt) (rm : Rm) (pi : Bool) (a : Val) : Nat × Fl :=
  match F.nanOf [a] with
  | some r => r
  | none => match a with
    | .inf false => (F.join false F.infEnc, {})
    | .fin n m e =>
      if m = 0 then (F.zero n, {})
      else if n then F.invalid
      else
        let k := 2 * F.fbits + 8
        let k := if (e - k) % 2 = 0 then k else k + 1
        let v := m * 2 ^ k
        let r := isqrt (bitLen v / 2 + 1) v 0
        F.round rm pi false r ((e - k) / 2) (decide (r * r ≠ v))
    | _ => F.invalid

/-- Order of two values (R93): `none` is unordered. -/
def Val.cmp : Val → Val → Option Ordering
  | .nan .., _ => none
  | _, .nan .. => none
  | .inf x, .inf y => some (if x = y then .eq else if x then .lt else .gt)
  | .inf x, _ => some (if x then .lt else .gt)
  | _, .inf y => some (if y then .gt else .lt)
  | .fin x m e, .fin y n f =>
    let d := addDy (signed x m, e) (signed (!y) n, f)
    some (if d.1 < 0 then .lt else if d.1 = 0 then .eq else .gt)

/-- Predicates of R94. -/
inductive Pred where
  | eq | lt | le | un
deriving DecidableEq, Repr

/-- A predicate and its NV flag (R94). -/
def Pred.eval (p : Pred) (a b : Val) : Bool × Fl :=
  let sig := a.isSig || b.isSig
  let un := a.isNan || b.isNan
  let c := Val.cmp a b
  match p with
  | .eq => (decide (c = some .eq), { nv := sig })
  | .un => (un, { nv := sig })
  | .lt => (decide (c = some .lt), { nv := un })
  | .le => (decide (c = some .lt) || decide (c = some .eq), { nv := un })

/-- maximum or minimum of R95, on encodings. -/
def FFmt.minmax (F : FFmt) (isMax : Bool) (x y : Nat) : Nat × Fl :=
  let a := F.dec x
  let b := F.dec y
  match F.nanOf [a, b] with
  | some r => r
  | none =>
    let less := match Val.cmp a b with
      | some .lt => true
      | some .eq => a.neg && !b.neg
      | _ => false
    (if less == isMax then y else x, {})

/-- Integer formats (R78). -/
inductive IFmt where
  | int4 | int8 | int16 | int32 | int64
deriving DecidableEq, Repr

def IFmt.bits : IFmt → Nat
  | .int4 => 4 | .int8 => 8 | .int16 => 16 | .int32 => 32 | .int64 => 64

/-- What a format code names. -/
inductive FmtKind where
  | float (F : FFmt)
  | int (I : IFmt)
  | cplx (F : FFmt)
deriving DecidableEq, Repr

/-- The formats of R70, R71, R78, R79, R81. -/
def fmtKind : Fmt → FmtKind
  | .pip8a => .float .pip8a
  | .pip8b => .float .pip8b
  | .pip16 => .float .pip16
  | .b32 => .float .b32
  | .b64 => .float .b64
  | .int4 => .int .int4
  | .int8 => .int .int8
  | .int16 => .int .int16
  | .int32 => .int .int32
  | .int64 => .int .int64
  | .c32 => .cplx .b32
  | .c64 => .cplx .b64

end Sys2Proof.Machine
end

