-- ==== Sys2Proof/Machine/Convert.lean ====
section
/-! DEFINITION. Format codes, conversions between any two formats (R96–R106) and the operations of R80 that only the
scalar core carries. -/

namespace Sys2Proof.Machine

/-- Code of a format (R141, R175, R227). -/
def fmtCode : Fmt → Nat
  | .pip8a => 0 | .pip8b => 1 | .pip16 => 2 | .int8 => 3 | .b32 => 4 | .b64 => 5
  | .int4 => 6 | .int16 => 7 | .int32 => 8 | .int64 => 9 | .c32 => 10 | .c64 => 11

/-- The format of a code. -/
def fmtOfCode (n : Nat) : Option Fmt := match n with
  | 0 => some .pip8a | 1 => some .pip8b | 2 => some .pip16 | 3 => some .int8 | 4 => some .b32 | 5 => some .b64
  | 6 => some .int4 | 7 => some .int16 | 8 => some .int32 | 9 => some .int64 | 10 => some .c32 | 11 => some .c64
  | _ => none

/-- Width of an element in bits (R70). -/
def fmtBits : Fmt → Nat
  | .pip8a | .pip8b | .int8 => 8
  | .pip16 | .int16 => 16
  | .b32 | .int32 => 32
  | .b64 | .int64 | .c32 => 64
  | .int4 => 4
  | .c64 => 128

/-- Rounding mode of a code; `none` for a reserved code, DYN included (R82). -/
def rmOfCode (n : Nat) : Option Rm := match n with
  | 0 => some .rne | 1 => some .rtz | 2 => some .rdn | 3 => some .rup | 4 => some .rna | _ => none

def rmCode : Rm → Nat
  | .rne => 0 | .rtz => 1 | .rdn => 2 | .rup => 3 | .rna => 4 | .dyn => 7

/-- The mode that applies: DYN names the engine's current mode (R82). -/
def rmResolve (rm : Rm) (cur : Nat) : Rm := match rm with
  | .dyn => (rmOfCode cur).getD .rne
  | r => r

/-- Largest and smallest value of an integer format. -/
def intMax (bits : Nat) (sgn : Bool) : Int := if sgn then 2 ^ (bits - 1) - 1 else 2 ^ bits - 1
def intMin (bits : Nat) (sgn : Bool) : Int := if sgn then -(2 ^ (bits - 1)) else 0

/-- A floating value to an integer of a width (R101, R102, R104). -/
def toInt (bits : Nat) (sgn : Bool) (rm : Rm) (v : Val) : Int × Fl :=
  match v with
  | .nan .. => (0, { nv := true })
  | .inf n => (if n then intMin bits sgn else intMax bits sgn, { nv := true, sat := 1 })
  | .fin n m e =>
    let (k, inx) := roundAt rm n m e false 0
    let r := signed n k
    if r < intMin bits sgn then (intMin bits sgn, { nv := true, sat := 1 })
    else if intMax bits sgn < r then (intMax bits sgn, { nv := true, sat := 1 })
    else (r, { nx := inx })

/-- An integer to a narrower one (R105). -/
def intToInt (bits : Nat) (i : Int) : Int × Fl :=
  if i < intMin bits true then (intMin bits true, { sat := 1 })
  else if intMax bits true < i then (intMax bits true, { sat := 1 })
  else (i, {})

/-- Payload of a NaN carried between formats (R102): kept from the top below the quiet bit. DESIGN CHOICE (log entry 26):
R102 has no row for the short format of R170; its payload is carried by the same rule as binary32's. -/
def nanPay (src dst : FFmt) (pay : Nat) : Nat :=
  if src.kind ≠ .ieee ∨ dst.kind ≠ .ieee then 0
  else if dst.fbits ≤ src.fbits then pay / 2 ^ (src.fbits - dst.fbits) else pay * 2 ^ (dst.fbits - src.fbits)

/-- Sign of a converted NaN: a pip8 NaN carries none (R102). -/
def nanNeg (src : FFmt) (n : Bool) : Bool := if src.kind = .pip8 then false else n

/-- A floating value to a floating format (R98–R103). -/
def toFloat (src dst : FFmt) (rm : Rm) (pi : Bool) (v : Val) : Nat × Fl :=
  match v with
  | .nan n s p => (dst.qnan (nanNeg src n) (nanPay src dst p), { nv := s })
  | .inf n => match dst.kind with
    | .pip8 => (dst.join n dst.maxEnc, { sat := 1 })
    | _ => (dst.join n dst.infEnc, {})
  | .fin n m e => dst.round rm pi n m e

/-- An integer to a floating format (R106). -/
def intToFloat (dst : FFmt) (rm : Rm) (pi : Bool) (i : Int) : Nat × Fl :=
  dst.round rm pi (decide (i < 0)) i.natAbs 0

/-- One part of an element from one format to another (R96–R106). -/
def convert1 (src dst : FmtKind) (rm : Rm) (pi : Bool) (x : Nat) : Nat × Fl :=
  match src, dst with
  | .float S, .float D | .cplx S, .cplx D => toFloat S D rm pi (S.dec x)
  | .float S, .int I =>
    let (r, f) := toInt I.bits true rm (S.dec x)
    (trunc I.bits r, f)
  | .int I, .float D => intToFloat D rm pi (sext I.bits x)
  | .int I, .int J =>
    let (r, f) := intToInt J.bits (sext I.bits x)
    (trunc J.bits r, f)
  | _, _ => (x, {})

/-- An element from one format to another; complex formats convert part by part (R81, R241). -/
def convert (src dst : Fmt) (rm : Rm) (pi : Bool) (x : Nat) : Nat × Fl :=
  match fmtKind src, fmtKind dst with
  | .cplx S, .cplx D =>
    let a := convert1 (.cplx S) (.cplx D) rm pi (x % 2 ^ S.width)
    let b := convert1 (.cplx S) (.cplx D) rm pi (x / 2 ^ S.width)
    (a.1 + b.1 * 2 ^ D.width, a.2.or b.2)
  | s, d => convert1 s d rm pi x

/-- The value of an element of a real format. -/
def valOf (k : FmtKind) (x : Nat) : Val := match k with
  | .float F | .cplx F => F.dec x
  | .int I =>
    let i := sext I.bits x
    .fin (decide (i < 0)) i.natAbs 0

/-- IEEE remainder (R279): exact, to the nearest multiple, ties to even. -/
def FFmt.remV (F : FFmt) (a b : Val) : Nat × Fl :=
  match F.nanOf [a, b] with
  | some r => r
  | none => match a, b with
    | .inf _, _ => F.invalid
    | .fin n m e, .inf _ => F.round .rne false n m e
    | .fin n m e, .fin _ k f =>
      if k = 0 then F.invalid
      else
        let g := min e f
        let x := m * 2 ^ (e - g).toNat
        let y := k * 2 ^ (f - g).toNat
        let q := x / y
        let r := x % y
        let q' := if y < 2 * r ∨ (2 * r = y ∧ q % 2 = 1) then q + 1 else q
        let d : Int := (x : Int) - (q' : Int) * y
        if d = 0 then (F.zero n, {}) else F.round .rne false (n != decide (d < 0)) d.natAbs g
    | _, _ => F.invalid

/-- minimumNumber and maximumNumber (R279): a number wins over a NaN. -/
def FFmt.minmaxNum (F : FFmt) (isMax : Bool) (x y : Nat) : Nat × Fl :=
  let a := F.dec x
  let b := F.dec y
  let f : Fl := { nv := a.isSig || b.isSig }
  match a.isNan, b.isNan with
  | true, false => (y % 2 ^ F.width, f)
  | false, true => (x % 2 ^ F.width, f)
  | _, _ => F.minmax isMax x y

/-- roundToIntegral under a mode; with `exact`, NX where the value changes (R279). -/
def FFmt.rint (F : FFmt) (rm : Rm) (exact : Bool) (v : Val) : Nat × Fl :=
  match F.nanOf [v] with
  | some r => r
  | none => match v with
    | .fin n m e =>
      let (k, inx) := roundAt rm n m e false 0
      if k = 0 then (F.zero n, { nx := exact && inx })
      else ((F.round .rne false n k 0).1, { nx := exact && inx })
    | v => (F.join v.neg F.infEnc, {})

/-- nextUp (R279), on an encoding. -/
def FFmt.nextUp (F : FFmt) (x : Nat) : Nat × Fl :=
  let v := F.dec x
  let h := 2 ^ (F.ebits + F.fbits)
  let x := x % 2 ^ F.width
  match F.nanOf [v] with
  | some r => r
  | none =>
    if x = h then (1, {})
    else if x < h then (if x = F.infEnc then x else x + 1, {})
    else (x - 1, {})

/-- nextDown: nextUp between two negations. -/
def FFmt.nextDown (F : FFmt) (x : Nat) : Nat × Fl :=
  let h := 2 ^ (F.ebits + F.fbits)
  let fl := fun y => if y % 2 ^ F.width < h then y % 2 ^ F.width + h else y % 2 ^ F.width - h
  match F.nanOf [F.dec x] with
  | some r => r
  | none =>
    let (r, f) := F.nextUp (fl x)
    (fl r, f)

/-- scaleB: A × 2^N rounded once (R279). -/
def FFmt.scaleb (F : FFmt) (rm : Rm) (v : Val) (n : Int) : Nat × Fl :=
  match F.nanOf [v] with
  | some r => r
  | none => match v with
    | .fin s m e =>
      let n := max (-100000) (min 100000 n)
      F.round rm false s m (e + n)
    | v => (F.join v.neg F.infEnc, {})

/-- Integers outside ±lim, all of them reached: what IEEE 754-2019 5.3.3 lets logB give for a zero, an infinity or a NaN
(R80; log entry 20). -/
def beyond (lim : Nat) (v : Dword) : Dword := if v.toInt.natAbs ≤ lim then v + BitVec.ofNat 64 (2 * lim + 1) else v

/-- logB as an integer register value; `none` where IEEE 754 leaves the integer to the implementation (zero, infinity
or NaN operand, which set NV). -/
def Val.logb : Val → Option Int
  | .fin _ m e => if m = 0 then none else some ((bitLen m : Int) - 1 + e)
  | _ => none

/-- The class bit of R281. -/
def FFmt.classBit (F : FFmt) (x : Nat) : Nat :=
  match F.dec x with
  | .nan _ s _ => if s then 0 else 1
  | .inf n => if n then 2 else 9
  | .fin n m _ =>
    if m = 0 then (if n then 5 else 6)
    else if m < 2 ^ F.fbits then (if n then 4 else 7)
    else (if n then 3 else 8)

/-- A key that orders encodings as totalOrder does: sign-magnitude order of the bits. -/
def FFmt.totalKey (F : FFmt) (x : Nat) : Int :=
  let h := 2 ^ (F.ebits + F.fbits)
  let x := x % 2 ^ F.width
  if x < h then (x : Int) else -((x - h : Nat) : Int) - 1

end Sys2Proof.Machine
end

