-- ==== Sys2Proof/Machine/TowerTypes.lean ====
section
/-! DEFINITION. The state of a Nanona core and of a Tower: registers, L1, queues, engines, TLBs, request tracker. -/

namespace Sys2Proof.Machine

/-- A segment descriptor: word 0 and word 1 (R271). -/
structure Seg where
  w0 : Dword := 0
  w1 : Dword := 0
deriving DecidableEq, Repr

/-- Why a core that issues no further instruction waits (R303, R327, R387). The waiting instruction has not executed. -/
inductive Wait where
  | none
  /-- a blocking L1 miss (R312) -/
  | l1Miss
  /-- a full engine queue (R25) -/
  | queueFull
  /-- `wait.q` or `done` (R292, R293) -/
  | waitQ
  /-- `bwait` for a bit address to hold a value; its timeout is running when `timed` (R289) -/
  | bwait (timed : Bool) (addr : Nat) (want : Bool)
  /-- a full store buffer, or stores that a load overlaps (R316, R318) -/
  | storeBuffer
  /-- a translation fault (R387) -/
  | translation
  /-- a bit instruction that publishes the core's stores first (R290) -/
  | remote
  /-- an uncached load that has not been answered, or an access to a page being migrated (R404) -/
  | uncached
  /-- a cache-maintenance instruction (R324) -/
  | maint
  /-- `fence` or `isync` (R319, R321) -/
  | fence
  /-- an engine-ordered `crr` (R295) -/
  | engineOrdered
  /-- a value from the vector unit (R257), or a `TWR_TCFGn` write (R210): engines waited for, as a queue mask -/
  | engineResult (mask : Nat)
  /-- `halt` (R300) -/
  | halted
deriving DecidableEq, Repr

/-- A physical piece of an access: its FPA, its length, and the DVA of its first byte. -/
structure Piece where
  fpa : Nat
  len : Nat
  dva : Nat
deriving DecidableEq, Repr

/-- A store in the store buffer (R316): its physical pieces, policy (R271) and bytes. -/
structure SbEntry where
  pieces : List Piece
  policy : Nat
  bytes : List Byte
  /-- the load at which the core stands waits for it (R318) -/
  awaited : Bool := false
deriving DecidableEq, Repr

/-- A valid L1 line (R308): the 64-byte line of an FPA, and the DVA through which it was filled. -/
structure L1Line where
  line : Nat
  dirty : Bool
  data : List Byte
  dva : Nat
deriving DecidableEq, Repr

/-- A fill in progress (R312): the line and its DVA. -/
structure Fill where
  line : Nat
  dva : Nat
deriving DecidableEq, Repr

/-- The loop buffer (R306, R307): idle, recording the second pass, or issuing. -/
inductive LoopBuf where
  | idle
  | record (target branch : Nat)
  | active (target branch : Nat)
deriving DecidableEq, Repr

/-- A segment fault that an engine found and the core has not taken (R297). -/
structure EngFault where
  engine : Nat
  sub : Nat
  off : Nat
  /-- stream slot, for ENGINE = 6 -/
  slot : Nat := 0
deriving DecidableEq, Repr

/-- A Nanona core. Core state registers hold what R262 lays out. -/
structure Core where
  g : Tab Dword := []
  q : Tab Qword := []
  segs : Tab Seg := []
  pc : Dword := 0
  flags : Dword := 0
  fpcsr : Dword := 0
  epc : Dword := 0
  ecause : Dword := 0
  eaddr : Dword := 0
  evec : Dword := 0
  estat : Dword := 0
  bwin : Dword := 0
  tower : Dword := 0
  /-- engine-origin exceptions due (R297) -/
  engPend : List EngFault := []
  /-- error source whose handler runs (R330) -/
  errSrc : Option Nat := none
  wait : Wait := .none
  /-- word of the instruction at which the core waits -/
  waitAt : Word := 0
  loop : LoopBuf := .idle
  /-- L1 lines by set × 4 + way -/
  l1 : Tab L1Line := []
  /-- pseudo-LRU bits of each set -/
  plru : Tab Nat := []
  /-- line being filled (R312) -/
  fill : Option Fill := none
  /-- the victim buffer (R308) -/
  victim : Option L1Line := none
  sbuf : List SbEntry := []
deriving DecidableEq, Repr

/-- The six engine queues, in the order of the queue-mask bits (R292). -/
inductive Eng where
  | vec | spr | dom | tur | tile | str
deriving DecidableEq, Repr

/-- An entry of an engine queue: an instruction with its captured operands (R166, R278), a control-register access
(R295) or a `qsync` marker (R292). -/
inductive QKind where
  | insn (i : Instr)
  | crw (a : Nat) (v : Dword)
  | marker (mask : Nat)
deriving DecidableEq, Repr

/-- What the checks of R342 have said of a descriptor in a slot's FIFO. -/
inductive EntryCheck where
  | due
  | ok
  /-- a stream error, raised (R347) -/
  | error (code : Nat)
  /-- a segment fault, whose exception is due or being handled (R342) -/
  | seg
deriving DecidableEq, Repr

structure QEntry where
  /-- position in the order of pushes of the Tower -/
  serial : Nat
  kind : QKind
  /-- segment numbers named, with the descriptors captured -/
  segs : List (Nat × Seg)
  /-- g registers captured, in operand order -/
  g : List Dword
  /-- scalar operand of a vector instruction (R239) -/
  q : Qword
  vl : Nat
  fmt : Nat
  fmtBad : Bool
  check : EntryCheck := .due
deriving DecidableEq, Repr

/-- Why an engine does not go on with the head of its queue. -/
inductive Stop where
  | running
  /-- segment fault waiting for the handler's return (R297, R299) -/
  | segFault
  /-- translation fault waiting for the driver (R387) -/
  | xlat
  /-- stopped by an error of its own; the step ends (R330) -/
  | error
deriving DecidableEq, Repr

/-- State of a Dome lane (R113). -/
inductive LaneState where
  | finite | exhausted | inf | nan
deriving DecidableEq, Repr

/-- A Dome lane: state, sign, invalid-pending bit and magnitude in units of 2^L (R110, R113). -/
structure Lane where
  st : LaneState
  neg : Bool
  nvp : Bool
  mag : Nat
deriving DecidableEq, Repr

/-- A cleared lane is −0 (R116). -/
def Lane.zero : Lane := ⟨.finite, true, false, 0⟩

/-- A configured Dome tile (R118–R122). -/
structure DomeTile where
  cls : Nat
  m : Nat
  n : Nat
  inuse : Bool
  guard : Bool
  /-- lanes by row × n + column; unlisted lanes are −0 -/
  lanes : Tab Lane
deriving DecidableEq, Repr

/-- A valid latch set of the Spire (R150): elements as bits, by row × 128 + column. -/
structure Latch where
  k : Nat
  n : Nat
  wfmt : Nat
  stat : Bool
  el : Tab Dword
deriving DecidableEq, Repr

/-- A Turret pointer (R177). -/
structure TurPtr where
  tile : Bool := false
  /-- tile register, or the segment's number -/
  num : Nat := 0
  seg : Seg := {}
  addr : Dword := 0
  fmt : Nat := 0
deriving DecidableEq, Repr

/-- Elements that a Turret chain gives, with flags and the number of empty SOFTMAX rows. -/
structure ChainOut where
  out : List Nat
  fl : Fl
  empty : Nat
deriving DecidableEq, Repr

/-- An instruction whose checks and translations have passed and which moves data (R246, R181, R216): the entry it belongs
to, its pieces by element or range, its bytes or row, and a drain's elements with the `TUR_HIST` it began under. A plan of a
stream slot holds the source's pieces and the destination's, and its bytes once `row` is 1. -/
structure Plan where
  serial : Nat
  parts : List (Nat × List Piece)
  bytes : List Byte := []
  row : Nat := 0
  chain : ChainOut := ⟨[], {}, 0⟩
  hist : Dword := 0
deriving DecidableEq, Repr

/-- A `tu.run` stopped by a preemption (R196): its next element, and its histogram counts so far. -/
structure TurPart where
  next : Nat
  counts : List Nat
deriving DecidableEq, Repr

/-- A stream slot (R337): shape words as of the last instruction that entered, FIFO, progress point of the descriptor at the
head. -/
structure Slot where
  shp : Dword := 0
  shq : Dword := 63
  fifo : List QEntry := []
  /-- bytes of the descriptor already moved: row, byte in the row -/
  row : Nat := 0
  byte : Nat := 0
  /-- how far its pages are translated ahead, in address order (R339): entry, page, side (0 the source, 1 the destination) that is next;
  and whether that stopped there on a fault -/
  ahead : Option (Nat × Nat × Nat) := none
  aheadStop : Bool := false
  /-- 0 idle or moving, 1 stopped by an error or a hole, 2 on a translation fault, 3 on a segment fault (R371) -/
  stopped : Nat := 0
deriving DecidableEq, Repr

/-- A request that left for a place outside the own Tower store whose answer the module waits for (R349). -/
structure Track where
  tag : Nat
  /-- requester: 0 scalar core, 1 vector, 2 Dome, 3 tile, 4 + k stream slot k -/
  who : Nat
  fpa : Nat
  len : Nat
  /-- DVA of the first byte -/
  dva : Nat
  write : Bool
  /-- a write-back or drained store, which no instruction awaits but `fence` -/
  posted : Bool
  data : List Byte
  done : Bool
  /-- a store that the load at which the core stands waits for (R318) -/
  awaited : Bool := false
  /-- its instruction was abandoned: the answer is discarded -/
  orphan : Bool := false
  /-- ASID of its step, once that has left the Tower -/
  gone : Option Nat := none
deriving DecidableEq, Repr

/-- A posted write of a whole line is a line's write-back; a store has at most 16 bytes (R316). -/
def Track.isBack (e : Track) : Bool := e.posted && decide (e.len = 64)
/-- A store that its region has not accepted (R317). -/
def Track.isStore (e : Track) : Bool := e.posted && !e.done && !e.orphan && decide (e.len ≠ 64)

/-- A leaf held by a TLB (R382): ASID, level of the leaf, DVA above the page offset, entry. -/
structure TlbEntry where
  asid : Nat
  level : Nat
  vpn : Nat
  pte : Dword
deriving DecidableEq, Repr

/-- A table entry held by the walk cache (R382): level of the table it leads to and the DVA prefix it governs; `root` is
the level-1 table under which it was found, so that a walk uses the root as it stands (R374). -/
structure WalkEntry where
  asid : Nat
  root : Nat
  level : Nat
  vpn : Nat
  next : Nat
deriving DecidableEq, Repr

/-- A walk in progress (R382): one that waits for a page being migrated (R404). -/
structure Walk where
  requester : Nat
  asid : Nat
  dva : Nat
deriving DecidableEq, Repr

/-- What a Tower is doing (R465, R487, R510). -/
inductive Run where
  | free
  /-- its step's program runs -/
  | running
  /-- it has executed `done` (R293) -/
  | done
  /-- its step is struck or has ended, or a machine check stopped it: it issues nothing (R467, R564, R313) -/
  | stopped
  /-- a saved context is being written to it (R474) -/
  | restoring
  /-- its context is back and it waits for its step's other Towers (R474) -/
  | restored
  /-- its step is preempted and its context is being saved (R471) -/
  | saving
  /-- its self-test runs (R510) -/
  | testing
  /-- retired (R512) -/
  | retired
deriving DecidableEq, Repr

/-- A Tower. -/
structure Tower where
  core : Core := {}
  run : Run := .free
  /-- key of the step it holds, and rank -/
  step : Option Nat := none
  rank : Nat := 0
  /-- held by power control in this roll (R487) -/
  held : Bool := false
  /-- watchdog armed (R332) -/
  armed : Bool := false
  timer : Nat := 0
  localBits : Tab Bool := []
  /-- queues in the order vector, Spire, Dome, Turret, tile, stream (R24) -/
  qVec : List QEntry := []
  qSpr : List QEntry := []
  qDom : List QEntry := []
  qTur : List QEntry := []
  qTile : List QEntry := []
  qStr : List QEntry := []
  serial : Nat := 0
  sVec : Stop := .running
  sDom : Stop := .running
  sSpr : Stop := .running
  sTur : Stop := .running
  sTile : Stop := .running
  sStr : Stop := .running
  vregs : Tab Byte := []
  masks : Tab Bool := []
  tiles : Tab Byte := []
  dome : Tab DomeTile := []
  active : Option Latch := none
  shadow : Option Latch := none
  turSlots : Tab (List Byte) := []
  turPtrs : Tab TurPtr := []
  turPart : Option TurPart := none
  slots : Tab Slot := []
  /-- of each access engine, the slot that it serves next (R343) -/
  rot : Tab Nat := []
  track : List Track := []
  /-- tags of remote requests that timed out, whose answers may still come: they are not given out again (R427) -/
  late : List Nat := []
  /-- the requester that takes a free entry first (R350) -/
  turn : Nat := 0
  /-- requests issued by the instruction at a requester's head -/
  gates : Tab Nat := []
  /-- what the instruction at a requester's head moves, once it is in its data phase -/
  plans : Tab Plan := []
  /-- engines whose head instruction has started and is not complete, by queue-mask number -/
  begun : List Nat := []
  /-- requesters that the last attempt left waiting for an entry (R350) -/
  starved : List Nat := []
  /-- TLBs by requester: 0 core, 1 vector, 2 tile, 3 Dome, 4 Turret, 5 Spire, 6 + k stream slot k; newest first -/
  tlbs : Tab (List TlbEntry) := []
  l2 : List TlbEntry := []
  l2keep : List TlbEntry := []
  walkCache : List WalkEntry := []
  /-- the walkers in use (R382) -/
  walks : List Walk := []
deriving DecidableEq, Repr

/-- Value of a g register; g0 reads as 0 (R259). -/
def Core.getG (c : Core) (r : GReg) : Dword := if r = 0 then 0 else Tab.get 0 c.g r.toNat
/-- Writes a g register; a write to g0 has no effect (R259). -/
def Core.setG (c : Core) (r : GReg) (v : Dword) : Core :=
  if r = 0 then c else { c with g := Tab.set c.g r.toNat v }
/-- Value of a q register (R260). -/
def Core.getQ (c : Core) (r : GReg) : Qword := Tab.get 0 c.q r.toNat
def Core.setQ (c : Core) (r : GReg) (v : Qword) : Core := { c with q := Tab.set c.q r.toNat v }
/-- Value of an f register, the low half of q (R260). -/
def Core.getF (c : Core) (r : GReg) : Dword := (c.getQ r).setWidth 64
/-- Writes an f register; bits [127:64] of q stay (R260). -/
def Core.setF (c : Core) (r : GReg) (v : Dword) : Core :=
  c.setQ r (((c.getQ r).extractLsb' 64 64) ++ v)
def Core.getS (c : Core) (r : R3) : Seg := Tab.get {} c.segs r.toNat
def Core.setS (c : Core) (r : R3) (v : Seg) : Core := { c with segs := Tab.set c.segs r.toNat v }

end Sys2Proof.Machine
end

