-- ==== Sys2Proof/Machine/FabTypes.lean ====
section
/-! DEFINITION. State of the fabric: ports and their links, collective slots (13_gwearo_fabric.md). -/

namespace Sys2Proof.Machine

/-- A data or control frame kept until it is acknowledged (R412), with the times it has been resent. -/
structure SentFrame where
  seq : Nat
  kind : Nat
  start : Nat
  slots : List Qword
  tries : Nat := 0
deriving DecidableEq, Repr

/-- The link of a port (R411–R417). Its STATE, BADLANES, PARTNER, PPORT and HALF stand in `GWL_PORTn`. -/
structure Port where
  /-- SEQ of the next frame sent, and last SEQ accepted, which every frame sent carries as ACK -/
  txSeq : Nat := 0
  rxSeq : Nat := 4095
  replay : List SentFrame := []
  /-- frames are discarded until the expected SEQ arrives, and NAK is sent -/
  nak : Bool := false
  /-- packets routed to the port that wait for credits, packets assigned to it while it hands over the traffic of a dead
  port (R417), and packets received that still hold buffer slots -/
  txq : List Packet := []
  held : List Packet := []
  rx : List Packet := []
  /-- packets accepted before the link trained anew, which hold no buffer slot of it (R417) -/
  old : List Packet := []
  /-- per VC, modulo 65,536: slots sent, latest FREED received, slots freed here, FREED last reported (R414) -/
  sent : Tab Nat := []
  freedIn : Tab Nat := []
  freed : Tab Nat := []
  told : Tab Nat := []
  /-- frames of any kind sent since the last CREDIT words -/
  sinceCredit : Nat := 0
  /-- VC whose turn it is among VC0 to VC6 (R422) -/
  turn : Nat := 0
  /-- dead ports whose HANDOVER word this port repeats until the partner's word for each arrives, with the last SEQ accepted
  there (R414, R417) -/
  hand : List (Nat × Nat) := []
  /-- a new HANDOVER word has not been sent yet -/
  handDue : Bool := false
  /-- frames received since this end last sent one (R412) -/
  unanswered : Nat := 0
  /-- corrected FEC symbols by lane of the last retrainings, with the boundaries passed at each (R508) -/
  symbols : List (Nat × List Nat) := []
  /-- frames that failed since the last error-rate check, and whether that check's retraining is recent (R509) -/
  badFrames : Nat := 0
  rateHold : Bool := false
  /-- consecutive failed attempts to train while DOWN (R508) -/
  downTries : Nat := 0
deriving DecidableEq, Repr

/-- A module-arrival stamp (R431): roll, phase, fine delay, module. -/
structure Stamp where
  roll : Nat := 0
  phase : Nat := 0
  fine : Nat := 0
  module : Nat := 0
deriving DecidableEq, Repr

/-- A Tower that has arrived in a slot's generation, with its rank and its step. -/
structure Arrival where
  tower : Nat
  rank : Nat
  step : Nat
deriving DecidableEq, Repr

/-- A collective slot (R428–R435). -/
structure CollSlot where
  bound : Bool := false
  op : Nat := 0
  cls : Nat := 0
  /-- handle of the channel whose steps arrive -/
  chan : Nat := 0
  localN : Nat := 0
  m : Nat := 0
  n : Nat := 0
  origin : Nat := 0
  ext : Nat := 0
  groupId : Nat := 0
  src : Nat := 0
  stride : Nat := 0
  dst : Nat := 0
  /-- generations released, the phase bit and the error bit -/
  gen : Nat := 0
  phase : Bool := false
  err : Bool := false
  /-- arrivals in the current generation -/
  arrived : List Arrival := []
  /-- the module has arrived; its own stamp -/
  up : Bool := false
  stamp : Stamp := {}
  /-- latest stamp of the subtree so far, and the combined block -/
  best : Stamp := {}
  block : List Byte := []
  /-- neighbours whose upward message has been combined -/
  got : List Nat := []
  /-- upward messages that came before the binding or the generation -/
  early : List CollMsg := []
  sentUp : Bool := false
  /-- its upward message waits for alignment (R435) -/
  held : Bool := false
  /-- the generation broke under R438, or breaks at the next boundary under R439 -/
  broken : Bool := false
  fault : Bool := false
  /-- neighbours that have told of its break under R439 (log entry 70) -/
  told : List Nat := []
deriving DecidableEq, Repr

/-- A collective message that has left for a neighbour (R432, R433). -/
structure CollSent where
  dest : Nat
  down : Bool
  msg : CollMsg
deriving DecidableEq, Repr

end Sys2Proof.Machine
end

