-- ==== Sys2Proof/Machine/AdmTypes.lean ====
section
/-! DEFINITION. Channels, steps and the Keep's own records (14_channels_and_steps.md). -/

namespace Sys2Proof.Machine

/-- Where a step is (R464–R474). -/
inductive Phase where
  | waiting | resident | preempted
deriving DecidableEq, Repr

/-- A Tower context saved at a preemption (R473): the rank, the Tower, the registers of its blocks, and its bytes. -/
structure Saved where
  rank : Nat
  tower : Tower
  regs : Tab Dword
  bytes : Nat
deriving DecidableEq, Repr

/-- An accepted step that has not posted. Steps are keyed by channel index × 65,536 + submission index. -/
structure StepSt where
  /-- the Keep's copy of the descriptor, 128 bytes (R461) -/
  desc : List Byte
  /-- region list: input entries, then output entries, as DVA and length -/
  regions : List (Nat × Nat)
  /-- status of the first check of R462 that failed, 0 if none -/
  fail : Nat
  /-- rc from which a boundary counts its acceptance (R53) -/
  due : Nat
  phase : Phase := .waiting
  towers : List Nat := []
  used : Nat := 0
  /-- rolls of residence since dispatch or restore (R470) -/
  stay : Nat := 0
  reexec : Nat := 0
  struck : Bool := false
  progErr : Bool := false
  /-- offset of its pattern of active rolls at the cap floor (R486) -/
  offset : Nat := 0
  energy : Nat := 0
  exact : Bool := true
  saved : List Saved := []
  /-- Towers reserved for it at the next boundary (R469) -/
  reserved : List Nat := []
  /-- low 32 bits of g1 of rank 0 at its `done` (R460) -/
  result : Nat := 0
deriving DecidableEq, Repr

/-- A completion not yet written (R457, R460). -/
structure Completion where
  status : Nat
  sqIndex : Nat
  reexec : Nat
  rolls : Nat
  tag : Nat
  energy : Nat
  exact : Bool
  result : Nat
deriving DecidableEq, Repr

/-- A channel index: its last generation, and the channel if one is live (R453–R457). -/
structure Channel where
  gen : Nat := 0
  /-- its handle is live: the reply to CHAN_CREATE has been written (R453) -/
  live : Bool := false
  /-- 0 free; 1 OPEN; 2 ABORTED; 3 FAULTED -/
  state : Nat := 0
  sqBase : Nat := 0
  cqBase : Nat := 0
  saveBase : Nat := 0
  sqLog : Nat := 0
  cqLog : Nat := 0
  asid : Nat := 0
  prio : Nat := 0
  weight : Nat := 0
  bwinBase : Nat := 0
  bwinLen : Nat := 0
  saveTowers : Nat := 0
  irq : Bool := false
  sqProd : Nat := 0
  sqCons : Nat := 0
  cqCons : Nat := 0
  posted : Nat := 0
  /-- completions held while FAULTED (R457) -/
  heldC : List Completion := []
  /-- a CHAN_ABORT acted while FAULTED (R456) -/
  abortPend : Bool := false
  /-- service received within its priority, and whether it had a head step at the last boundary (R469) -/
  service : Nat := 0
  headed : Bool := false
  /-- energy of exact and of apportioned rolls (R502) -/
  exactUj : Nat := 0
  sharedUj : Nat := 0
deriving DecidableEq, Repr

/-- A reply formed and not yet written (R444): its packet's flags and the 32 bytes. -/
structure Reply where
  irq : Bool
  bytes : List Byte
  /-- result data longer than 16 bytes, and its destination (R446) -/
  data : List Byte
  dest : Nat
  /-- the MIGRATE, by its number, whose last page the reply waits for (R402) -/
  waits : Option Nat
  /-- the channel whose handle is live from this reply (R453) -/
  opens : Option Nat := none
deriving DecidableEq, Repr

end Sys2Proof.Machine
end

