-- ==== Sys2Proof/Machine/ModTypes.lean ====
section
/-! DEFINITION. State of the module as a whole: rolls, power, error counts, flash, start-up, SMBus, admin ring, and what it
has put on its outputs. -/

namespace Sys2Proof.Machine

/-- The last inter-module barrier released in a roll (R63, R434). -/
structure Barrier where
  id : Nat
  slack : Nat
  arrRolls : Nat
  arrPhase : Nat
  last : Bool
deriving DecidableEq, Repr

/-- Rolls (02_rolls.md). -/
structure RollSt where
  /-- boundaries passed since power-up: a lengthened roll counts as one (R49) -/
  passed : Nat := 0
  /-- rc from power-up to the boundary that began the current roll; an input takes effect at the first boundary 256 rc after
  it (R53) -/
  rc : Nat := 0
  /-- rc of the current roll, and the roll number adopted at its end (R48) -/
  len : Nat := 1024
  adopt : Option Nat := none
  /-- fine delay in steps of 156.25 ps, and steps of the measured offset not yet corrected (R45) -/
  fine : Nat := 0
  left : Int := 0
  /-- values in force of ROLL_CFG and KEEP_CFG, and the rc from which the written ones take effect at a boundary (R53, R68,
  R476) -/
  cfg : Dword := 0
  cfgDue : Nat := 0
  keepCfg : Dword := 0
  keepCfgDue : Nat := 0
  /-- values written to RESERVE_NEXT, with the rc from which a boundary copies each into the configuration record (R53, R538) -/
  memDue : List (Nat × Dword) := []
  /-- whether each of the last valid frames came 1,024 rc after the one before (R40) -/
  gaps : List Bool := []
  /-- IN_LOCK has been 1 since power-up (R50) -/
  everLock : Bool := false
  /-- a module was aligned once, so that it moves in steps no more (R48) -/
  everAligned : Bool := false
  /-- it has moved to the first valid frame or fabric measurement (R48) -/
  stepped : Bool := false
  /-- conditions of R46: the last measured offset is at most 0.5 ns, and the roll number agreed with the parent's then -/
  near : Bool := false
  agree : Bool := false
  /-- the parent has not replied for 64 rolls (R50) -/
  parentLost : Bool := false
  /-- the follower has directions for the current roll, or the leader directs both dies (R27) -/
  directed : Bool := true
  /-- t1 of the exchange in progress (R44) -/
  t1 : Option Dword := none
  /-- consecutive boundaries whose decisions were late (R54, R517); nonzero: those for the current roll were -/
  overruns : Nat := 0
  /-- items 3 to 6 of R55 have changed no step at the boundary that began the current roll, and its report has not gone to the
  ring: a packet taken there still acts before them -/
  settled : Bool := true
  /-- a Tower sampled roll-granularly in the current roll (R334) -/
  degraded : Bool := false
  barrier : Option Barrier := none
  /-- steps placed and preempted at the boundary that began the current roll -/
  placed : Nat := 0
  preempted : Nat := 0
  /-- Towers that began the current roll assigned to a step, neither held, nor idle after `done`, nor saving; Towers held in
  it; Towers that began it below their ask, or held (R63, R65) -/
  active : List Nat := []
  heldT : List Nat := []
  slow : List Nat := []
  /-- ROLL_PHASE at which Towers executed `done` in the current roll; droop stretches in it by region, from and to (R65) -/
  doneAt : Tab Nat := []
  spans : List (Nat × Nat × Nat) := []
  /-- Towers occupied in the current roll, each with its step (R469, R501) -/
  occ : List (Nat × Nat) := []
  /-- report-counted event records of the current roll (R63) -/
  errors : Nat := 0
  /-- the most recent 64 reports, newest first (R62), and the report not yet written to the ring -/
  reports : List (Nat × List Byte) := []
  due : Option (List Byte) := none
deriving DecidableEq, Repr

/-- Power control (15_power_and_thermal.md). -/
structure PwrSt where
  /-- thermal ceilings below OP7, as 7 minus the ceiling, and quiet boundaries counted (R489) -/
  thermDrop : Tab Nat := []
  quiet : Tab Nat := []
  /-- external ceiling of every region, boundaries without PWR_ALERT# (R494) -/
  ext : Nat := 7
  extQuiet : Nat := 0
  /-- PWR_ALERT# was asserted in this roll; gating under R494 holds, or held in this roll -/
  alertRoll : Bool := false
  alertGate : Bool := false
  alertGated : Bool := false
  /-- regions that reached 103 °C, whose die is gated (R490) -/
  hot : List Nat := []
  /-- ROLL_PHASE at which gating began in the current roll, per die -/
  gateFrom : Tab Nat := []
  /-- regions in a droop stretch with the ROLL_PHASE at which it began, 0 if in an earlier roll, and its tc counted in earlier
  rolls; stretched tc of the roll by region (R495) -/
  droop : Tab (Nat × Nat) := []
  stretched : Tab Nat := []
  /-- devices at doubled refresh, and devices that limit their die's requests (R491) -/
  refresh : List Nat := []
  limited : List Nat := []
  /-- devices that crossed 100 °C, with the rc from which R53 lets a boundary limit their die's requests (R53, R491) -/
  limitDue : Tab Nat := []
  /-- regions with an ask in the current roll (R482) -/
  asked : List Nat := []
  /-- last temperature of a device, by its report or by the sample; readings at the PHYs (R488) -/
  devTemp : Tab Nat := []
  phy : List Byte := []
  /-- draw of the host die in the roll just ended, in W (R527) -/
  hostPower : Nat := 0
  /-- held-roll plan: k, and the boundaries passed at its onset (R486) -/
  plan : Option (Nat × Nat) := none
  /-- throttle reasons of the current roll so far (R503) -/
  reasons : Nat := 0
  /-- planned margin in mV, baseline slacks in ps and change of slack in fs per mV, by region × 8 + operating point (R518,
  R519) -/
  margins : Tab Nat := []
  base : Tab (List Int) := []
  slope : Tab Nat := []
  /-- margins of re-planned regions, which the next boundary puts in force (R519) -/
  replan : Tab (List Nat) := []
  /-- values in force of PWR_FILL and PWR_DROOP_CFG, and values written, oldest first, with the rc from which a boundary takes
  each (R53, R504) -/
  fill : Dword := 0
  fillDue : List (Nat × Dword) := []
  droopCfg : Dword := 0
  droopDue : List (Nat × Dword) := []
deriving DecidableEq, Repr

/-- A device's coefficient record (R367): module serial, device identity, training version, coefficients, whether its CRC is
good. -/
structure Coeff where
  serial : List Byte
  ident : Nat
  version : Nat
  value : Dword
  good : Bool
deriving DecidableEq, Repr

/-- A record that the Keep is to program in the flash (R523). -/
inductive FlashRec where
  /-- a retirement: part coded as in the event log, trigger (R515) -/
  | retire (part trigger : Nat)
  /-- spare-row mapping of a Tower: its SPR_SPARE (R511) -/
  | spare (t : Nat) (v : Dword) (trigger : Nat)
  /-- a lane marking: the port's bad lanes, and the lane marked with its trigger (R515) -/
  | lanes (p bad lane trigger : Nat)
  | relayout (on : Bool)
  /-- deletion by UNRETIRE (R556) -/
  | unretire (part : Nat) (all : Bool)
  | config (bytes : List Byte)
  | boot (active trial tried : Bool)
  /-- a region's margins, and baseline and change of slack at each operating point (R518, R519) -/
  | margins (region : Nat) (mv : List Nat) (base : List (List Int)) (slope : List Nat)
  /-- a device's coefficients (R367) -/
  | coeff (d : Nat) (c : Coeff)
deriving DecidableEq, Repr

/-- The factory configuration record without its CRC: version 1, module 0, one module, roll source, reserve 1 (R538). -/
def factoryConfig : List Byte := [1, 0, 0, 0, 0, 0, 0, 3] ++ List.replicate 52 0

/-- The module flash (R521–R523, R537, R538, R546), each record at its newest valid copy. -/
structure Flash where
  config : List Byte := factoryConfig
  /-- boot record: active slot B, TRIAL, TRIED -/
  active : Bool := false
  trial : Bool := false
  tried : Bool := false
  /-- what the slots hold: the image of manufacture, until the slot is erased; then an image that passed staging, or nothing
  (R548) -/
  madeA : Bool := true
  madeB : Bool := true
  slotA : List Byte := []
  slotB : List Byte := []
  retired : List (Nat × Nat) := []
  spares : Tab (Dword × Nat) := []
  lanes : Tab Nat := []
  /-- triggers of the lane markings, by port × 8 + lane (R515) -/
  laneWhy : Tab Nat := []
  relayout : Bool := false
  /-- the memory layout in use: list L and reserve R (R362, R365) -/
  order : List Nat := List.range 24
  reserve : Nat := 1
  margins : Tab Nat := []
  base : Tab (List Int) := []
  slope : Tab Nat := []
  /-- coefficient records by device (R367) -/
  coeffs : Tab Coeff := []
  /-- event log by SEQ, oldest first; SEQ of the next record; power-ups counted (R521) -/
  log : List (Nat × List Byte) := []
  seq : Nat := 0
  boots : Nat := 0
  /-- SVN_MIN in the fuses (R544) -/
  svnMin : Nat := 0
deriving DecidableEq, Repr

/-- Records waiting to be programmed; they are lost with power (R523, R525). -/
structure FlashQueue where
  recs : List FlashRec := []
  /-- event records: roll, type, part, detail (R521) -/
  events : List (Nat × Nat × Nat × List Byte) := []
deriving DecidableEq, Repr

/-- Error counts and judgements (R508). -/
structure RelSt where
  /-- counts by key, each by the number of its bucket -/
  counts : Tab (Tab Nat) := []
  /-- granules of device memory at which an error was met, with the boundaries passed at the first -/
  ueSeen : Tab Nat := []
  /-- consecutive scrubs that corrected a store word -/
  scrubFix : Tab Nat := []
  /-- parts judged permanent and not yet acted on: part, trigger, its count -/
  judged : List (Nat × Nat × Nat) := []
  /-- what self-tests that have ended in the current roll found, by Tower (R156) -/
  tests : List (Nat × TestResult) := []
  /-- Towers judged while assigned, to be retired at their release, with the trigger (R512) -/
  retireLater : Tab Nat := []
  /-- devices judged by their correction count alone after the spare frames were taken (R513) -/
  ceJudged : List Nat := []
  /-- consecutive boundaries without a report of the follower (R516) -/
  keepSilent : Nat := 0
  /-- totals of the telemetry interval of 64 rolls, and the DETAIL of intervals that have ended (R521, R522) -/
  teleFrom : Nat := 0
  teleDone : List (List Byte) := []
  teleEnergy : Nat := 0
  teleTj : Nat := 0
  teleOpHi : Nat := 0
  teleOpLo : Nat := 7
  teleOpSeen : Bool := false
  teleReasons : Nat := 0
  teleHeld : Nat := 0
  teleTowerCe : Nat := 0
  teleMemCe : Nat := 0
  teleResent : Nat := 0
  telePosted : Nat := 0
deriving DecidableEq, Repr

/-- Instruction in the test access port (R531). -/
inductive Tap where
  | idcode | bypass | sample | extest | clamp
deriving DecidableEq, Repr

/-- A staging in progress (R548). -/
structure Stage where
  src : Nat
  len : Nat
  /-- code of the first check of R546 that the image failed, 0 if it verifies -/
  code : Nat
  image : List Byte
deriving DecidableEq, Repr

/-- The attestation report that the Keep holds (R552). -/
structure Report where
  nonce : List Byte
  signed : Bool
  bytes : List Byte
deriving DecidableEq, Repr

/-- Start-up, resets, identity (17_host_attach_and_startup.md). -/
structure BootSt where
  /-- level of PWR_GOOD -/
  power : Bool := true
  /-- BOOT_STATE: 0 ROM, 1 firmware, 2 READY, 3 stopped (R550) -/
  state : Nat := 0
  /-- the power-up sequence runs, and it has loaded firmware from a slot: slot B -/
  running : Bool := true
  fw : Option Bool := none
  /-- the configuration record in force (R538) -/
  config : List Byte := factoryConfig
  straps : Nat := 0
  /-- what the power-up sequence last found in the parts; a module reset finds the same (log entry 39) -/
  env : BootEnv := ⟨0, 0, 0, ⟨0, 0, []⟩, ⟨0, 0, []⟩, [], 60, [], [], [], [], false, [], []⟩
  /-- SVN, VERSION and first bytes of the header of the image that runs (R550, R553) -/
  image : FactoryImage := ⟨0, 0, []⟩
  trip : Bool := false
  /-- EXTEST or CLAMP has stopped the module until the next power-up reset -/
  tapStop : Bool := false
  tap : Tap := .idcode
  /-- the identity responder serves; the identity record last served (R551) -/
  responder : Bool := false
  identity : List Byte := []
  stage : Option Stage := none
  report : Option Report := none
  /-- RESET was accepted as this admin packet; its reset begins after the reply (R557) -/
  resetAfter : Option Nat := none
deriving DecidableEq, Repr

/-- SMBus (R447–R449). -/
structure SmbSt where
  pending : Option (Half × Wennum) := none
  pendDue : Nat := 0
  lastSeq : Option Word := none
  reply : List Byte := []
  data : List Byte := []
deriving DecidableEq, Repr

/-- The admin ring (R444, R445). -/
structure AdmSt where
  /-- packets taken -/
  taken : Nat := 0
  /-- producer values with the rc from which R53 lets a boundary take them -/
  inputs : List (Nat × Nat) := []
  /-- doorbells written and not yet served, oldest first: channel index, producer value (R459) -/
  bells : List (Nat × Nat) := []
  /-- packets that came by their own rows between boundaries: that rc, opcode, packet (R53, R445) -/
  rows : List (Nat × Nat × Wennum) := []
  replies : List Reply := []
deriving DecidableEq, Repr

/-- A completion of a host-die access (R533). -/
inductive HostAns where
  | data (bytes : List Byte)
  | error
deriving DecidableEq, Repr

/-- What the module has put on its outputs, newest last. -/
structure Outputs where
  /-- completions of host-die reads and writes -/
  host : List HostAns := []
  /-- last SMBus transaction: acknowledged, bytes returned -/
  smb : Option (Bool × List Byte) := none
  /-- frames sent on ROLL_OUT: rc after the boundary or the received marker, levels of the line in rc 0 to 95 (R41, R42) -/
  roll : List (Nat × List Bool) := []
  /-- frames sent on the links: port, 256 bytes (R411) -/
  link : List (Nat × List Byte) := []
  /-- word shifted out of the test access port -/
  tdo : Option Word := none
deriving DecidableEq, Repr

end Sys2Proof.Machine
end

