-- ==== Sys2Proof/Machine/Regs.lean ====
section
/-! DEFINITION. The control registers: addresses, fields, Reset values and access codes, as the register tables of
spec/02 to spec/17 give them (R15, R19). A field whose Reset column says F reads 0 until firmware loads it (log entry 3). -/

namespace Sys2Proof.Machine

/-- A field of a control register: the register's LPA and the field's bits. -/
structure RegField where
  addr : Nat
  hi : Nat
  lo : Nat
deriving DecidableEq, Repr

/-- What the tables say of a register: Reset value, and the bits whose access code is RW, W1C and W1S. -/
structure RegInfo where
  reset : Nat
  rw : Nat
  w1c : Nat
  w1s : Nat
deriving DecidableEq, Repr

/-- A row of a block: first offset, registers at steps of 8 bytes, what they are. -/
structure RegRow where
  off : Nat
  count : Nat
  info : RegInfo
deriving DecidableEq, Repr

/-- Base of the blocks of Tower `t` (R225). -/
def towerBase (t : Nat) : Nat := 0x1F0100000000 + t * 0x100000

/-- The `ROLL_` block at 0x1F0000010000. -/
def rollRows : List RegRow := [
  ⟨0x0, 1, ⟨0x0, 0x0, 0x0, 0x0⟩⟩,
  ⟨0x8, 1, ⟨0x0, 0x0, 0x0, 0x0⟩⟩,
  ⟨0x10, 1, ⟨0x10000000006, 0xFFF0FFFF00000007, 0x0, 0x0⟩⟩,
  ⟨0x18, 1, ⟨0x0, 0x0, 0x1F8, 0x0⟩⟩,
  ⟨0x20, 1, ⟨0x0, 0x0, 0x0, 0x0⟩⟩,
  ⟨0x28, 1, ⟨0x0, 0x1FFFFFFFFFC0, 0x0, 0x0⟩⟩,
  ⟨0x30, 1, ⟨0xC, 0x3F, 0x0, 0x0⟩⟩,
  ⟨0x38, 1, ⟨0x0, 0x0, 0x0, 0x0⟩⟩,
  ⟨0x40, 1, ⟨0x0, 0xFFFFFFFF, 0x0, 0x0⟩⟩,
  ⟨0x48, 1, ⟨0x0, 0x0, 0x0, 0x0⟩⟩]

/-- The `DOM_` block at Tower base + 0x4000. -/
def domRows : List RegRow := [
  ⟨0x0, 1, ⟨0x0, 0xFF, 0x0, 0x0⟩⟩,
  ⟨0x8, 1, ⟨0x0, 0x0, 0x7, 0x0⟩⟩,
  ⟨0x10, 1, ⟨0x0, 0x1, 0x0, 0x0⟩⟩,
  ⟨0x18, 1, ⟨0x200, 0x0, 0x0, 0x0⟩⟩,
  ⟨0x20, 1, ⟨0x0, 0xFFFFFFFF, 0x0, 0x0⟩⟩,
  ⟨0x40, 8, ⟨0x0, 0x0, 0x0, 0x0⟩⟩]

/-- The `SPR_` block at Tower base + 0x3000. -/
def sprRows : List RegRow := [
  ⟨0x0, 1, ⟨0x20, 0x0, 0x0, 0x0⟩⟩,
  ⟨0x8, 1, ⟨0x0, 0x0, 0x1, 0x0⟩⟩,
  ⟨0x10, 1, ⟨0x0, 0x0, 0x0, 0x0⟩⟩,
  ⟨0x18, 1, ⟨0x1, 0x1, 0x0, 0x0⟩⟩,
  ⟨0x20, 1, ⟨0x0, 0xFFFFFFFFFFFFFFFF, 0x0, 0x0⟩⟩,
  ⟨0x28, 1, ⟨0x0, 0xFFFFFFFFFFFFFFFF, 0x0, 0x0⟩⟩,
  ⟨0x30, 1, ⟨0x0, 0xFFFFFFFFFFFFFFFF, 0x0, 0x0⟩⟩]

/-- The `TUR_` block at Tower base + 0x5000. -/
def turRows : List RegRow := [
  ⟨0x0, 1, ⟨0x0, 0xFF, 0x0, 0x0⟩⟩,
  ⟨0x8, 1, ⟨0x0, 0x1, 0x0, 0x0⟩⟩,
  ⟨0x10, 1, ⟨0xFFE00000, 0xFFFF0107, 0x0, 0x0⟩⟩,
  ⟨0x18, 1, ⟨0x0, 0x0, 0x3, 0x0⟩⟩,
  ⟨0x20, 1, ⟨0x0, 0xFFFFFFFFFFFFFFFF, 0x0, 0x0⟩⟩,
  ⟨0x28, 1, ⟨0x0, 0xFFFFFFFF, 0x0, 0x0⟩⟩,
  ⟨0x30, 1, ⟨0x0, 0x0, 0x0, 0x0⟩⟩,
  ⟨0x38, 1, ⟨0x0, 0x0, 0x0, 0x0⟩⟩,
  ⟨0x40, 1, ⟨0x0, 0xFFFFFFFFFFFFFFFF, 0x0, 0x0⟩⟩]

/-- The `TWR_` block at Tower base + 0x0. -/
def twrRows : List RegRow := [
  ⟨0x0, 1, ⟨0x0, 0x0, 0xF, 0x0⟩⟩,
  ⟨0x8, 1, ⟨0x0, 0x7, 0x0, 0x0⟩⟩,
  ⟨0x10, 1, ⟨0x0, 0x7F000F, 0x0, 0x0⟩⟩,
  ⟨0x18, 1, ⟨0x0, 0x0, 0xF, 0x0⟩⟩,
  ⟨0x20, 1, ⟨0x0, 0x7777, 0x0, 0x0⟩⟩,
  ⟨0x28, 1, ⟨0x0, 0x7777777, 0x0, 0x0⟩⟩,
  ⟨0x30, 1, ⟨0x0, 0xFFFFFFFFFFFFFFFF, 0x0, 0x0⟩⟩,
  ⟨0x40, 1, ⟨0x0, 0x0, 0x0, 0x0⟩⟩,
  ⟨0x48, 1, ⟨0x0, 0xFFFFFFFF, 0x0, 0x0⟩⟩,
  ⟨0x50, 1, ⟨0x4000000000C, 0xFFFFFFFF0000003F, 0x0, 0x0⟩⟩,
  ⟨0x58, 1, ⟨0x0, 0x1FFFFFFFFFF0, 0x0, 0x0⟩⟩,
  ⟨0x60, 1, ⟨0x0, 0x0, 0x0, 0x0⟩⟩,
  ⟨0x68, 1, ⟨0x0, 0xFFFFFFFF, 0x0, 0x0⟩⟩,
  ⟨0x80, 1, ⟨0x0, 0xFFFFFFFFFFFFFFFF, 0x0, 0x0⟩⟩,
  ⟨0x88, 1, ⟨0x0, 0xFFFFFFFFFFFFFFFF, 0x0, 0x0⟩⟩,
  ⟨0x90, 1, ⟨0x0, 0xFFFFFFFFFFFFFFFF, 0x0, 0x0⟩⟩,
  ⟨0x98, 1, ⟨0x0, 0xFFFFFFFFFFFFFFFF, 0x0, 0x0⟩⟩,
  ⟨0x200, 1, ⟨0x0, 0x0, 0x101, 0x0⟩⟩,
  ⟨0x208, 1, ⟨0x0, 0x0, 0x0, 0x0⟩⟩,
  ⟨0x210, 1, ⟨0x0, 0xFFFFFFFFFFFFFFFF, 0x0, 0x0⟩⟩,
  ⟨0x218, 1, ⟨0x0, 0xFFFFFFFFFFFFFFFF, 0x0, 0x0⟩⟩,
  ⟨0x240, 8, ⟨0x1000080, 0x1FF00FF, 0x0, 0x0⟩⟩]

/-- The `VEC_` block at Tower base + 0x6000. -/
def vecRows : List RegRow := [
  ⟨0x0, 1, ⟨0x0, 0xFF, 0x0, 0x0⟩⟩,
  ⟨0x8, 1, ⟨0x0, 0x1, 0x0, 0x0⟩⟩,
  ⟨0x10, 1, ⟨0x0, 0x1, 0x0, 0x0⟩⟩,
  ⟨0x18, 1, ⟨0x8000000000000000, 0x0, 0x0, 0x0⟩⟩,
  ⟨0x20, 1, ⟨0x0, 0x0, 0x1, 0x0⟩⟩,
  ⟨0x28, 1, ⟨0x0, 0x0, 0x0, 0x0⟩⟩,
  ⟨0x30, 1, ⟨0x0, 0xFFFFFFFFFFFFFFFF, 0x0, 0x0⟩⟩,
  ⟨0x38, 1, ⟨0x0, 0x0, 0x0, 0x0⟩⟩,
  ⟨0x40, 1, ⟨0x0, 0x0, 0x0, 0x0⟩⟩,
  ⟨0x48, 1, ⟨0x0, 0x0, 0x0, 0x0⟩⟩,
  ⟨0x50, 1, ⟨0x204000, 0x0, 0x0, 0x0⟩⟩]

/-- The `ACC_` block at Tower base + 0x7000. -/
def accRows : List RegRow := [
  ⟨0x0, 1, ⟨0x0, 0x0, 0x1, 0x0⟩⟩,
  ⟨0x8, 1, ⟨0x0, 0x0, 0xFFFF, 0x0⟩⟩,
  ⟨0x10, 1, ⟨0x0, 0x3FFF00000000, 0x0, 0x0⟩⟩,
  ⟨0x18, 1, ⟨0x800, 0xFFF, 0x0, 0x0⟩⟩,
  ⟨0x20, 1, ⟨0x0, 0xFFFFFFFFFFFFFFFF, 0x0, 0x0⟩⟩,
  ⟨0x28, 1, ⟨0x0, 0xFFFFFFFFFFFFFFFF, 0x0, 0x0⟩⟩,
  ⟨0x30, 1, ⟨0x0, 0xFFFFFFFFFFFFFFFF, 0x0, 0x0⟩⟩,
  ⟨0x40, 16, ⟨0x0, 0x0, 0x0, 0x0⟩⟩]

/-- The `MEM_` block at 0x1F0000020000. -/
def memRows : List RegRow := [
  ⟨0x0, 1, ⟨0x6000000000, 0xFFFF00000001, 0x0, 0x0⟩⟩,
  ⟨0x8, 1, ⟨0x0, 0x0, 0x0, 0x0⟩⟩,
  ⟨0x10, 1, ⟨0x0, 0x0, 0x0, 0x0⟩⟩,
  ⟨0x18, 1, ⟨0x0, 0xFFFFFFFF, 0x0, 0x0⟩⟩,
  ⟨0x20, 1, ⟨0x0, 0xFFFFFFFF, 0x0, 0x0⟩⟩,
  ⟨0x28, 1, ⟨0x0, 0x0, 0x0, 0x0⟩⟩,
  ⟨0x80, 24, ⟨0x0, 0xFFFFFFFFFFFF, 0x0, 0x0⟩⟩]

/-- The `XLT_` block at 0x1F0000030000. -/
def xltModuleRows : List RegRow := [
  ⟨0x0, 1, ⟨0x0, 0xF, 0x0, 0x0⟩⟩,
  ⟨0x8, 1, ⟨0x0, 0x0, 0xE, 0x0⟩⟩,
  ⟨0x10, 1, ⟨0x0, 0x1FFFFFFFFFC0, 0x0, 0x0⟩⟩,
  ⟨0x18, 1, ⟨0x0, 0x0, 0x0, 0x0⟩⟩,
  ⟨0x20, 1, ⟨0x0, 0xFFFFFFFF, 0x0, 0x0⟩⟩,
  ⟨0x28, 1, ⟨0x0, 0xFFFFFFFF, 0x0, 0x0⟩⟩,
  ⟨0x30, 1, ⟨0x0, 0xFFFFFFFF, 0x0, 0x0⟩⟩,
  ⟨0x38, 1, ⟨0x0, 0x0, 0x0, 0x0⟩⟩,
  ⟨0x40, 1, ⟨0x0, 0x0, 0x0, 0x0⟩⟩,
  ⟨0x48, 1, ⟨0x0, 0xFFFFFFFF0000, 0x0, 0x0⟩⟩,
  ⟨0x50, 1, ⟨0x20, 0x1FF7E, 0x0, 0x1⟩⟩,
  ⟨0x58, 1, ⟨0x0, 0x0, 0x0, 0x0⟩⟩,
  ⟨0x800, 256, ⟨0x0, 0x1FFFFFFFF001, 0x0, 0x0⟩⟩]

/-- The `XLT_` block at Tower base + 0x8000. -/
def xltTowerRows : List RegRow := [
  ⟨0x0, 1, ⟨0x0, 0x0, 0x0, 0x0⟩⟩,
  ⟨0x8, 1, ⟨0x0, 0xFFFFFFFF, 0x0, 0x0⟩⟩,
  ⟨0x10, 1, ⟨0x0, 0xFFFFFFFFFFFFFFFF, 0x0, 0x0⟩⟩,
  ⟨0x18, 1, ⟨0x0, 0xFFFFFFFFFFFFFFFF, 0x0, 0x0⟩⟩]

/-- The `GWL_` block at 0x1F0000040000. -/
def gwlRows : List RegRow := [
  ⟨0x0, 1, ⟨0x0, 0x0, 0x0, 0x0⟩⟩,
  ⟨0x8, 1, ⟨0x6400000002, 0xFFFF00000003, 0x0, 0x0⟩⟩,
  ⟨0x10, 1, ⟨0x0, 0x0, 0x3, 0x0⟩⟩,
  ⟨0x18, 1, ⟨0x0, 0x0, 0x0, 0x0⟩⟩,
  ⟨0x20, 1, ⟨0x0, 0xFFFFFFFFFFFFFFFF, 0x0, 0x0⟩⟩,
  ⟨0x28, 1, ⟨0x0, 0xFFFFFFFFFFFFFFFF, 0x0, 0x0⟩⟩,
  ⟨0x30, 1, ⟨0x0, 0xFFFFFFFF, 0x0, 0x0⟩⟩,
  ⟨0x38, 1, ⟨0x0, 0xFFFFFFFF, 0x0, 0x0⟩⟩,
  ⟨0x40, 1, ⟨0x0, 0xFFFFFFFF, 0x0, 0x0⟩⟩,
  ⟨0x48, 1, ⟨0x0, 0x1FF, 0x0, 0x0⟩⟩,
  ⟨0x50, 1, ⟨0x0, 0x0, 0x0, 0x0⟩⟩,
  ⟨0x100, 18, ⟨0x0, 0x0, 0x0, 0x1⟩⟩,
  ⟨0x200, 18, ⟨0x0, 0xFFFFFFFFFFFFFFFF, 0x0, 0x0⟩⟩]

/-- The `KEEP_` block at 0x1F0000050000. -/
def keepRows : List RegRow := [
  ⟨0x0, 1, ⟨0x0, 0x0, 0xA, 0x0⟩⟩,
  ⟨0x8, 1, ⟨0x1003000028, 0xFF070007FF, 0x0, 0x0⟩⟩,
  ⟨0x10, 1, ⟨0x0, 0x1FFFFFFFFFC0, 0x0, 0x0⟩⟩,
  ⟨0x18, 1, ⟨0x0, 0x1FFFFFFFFFE0, 0x0, 0x0⟩⟩,
  ⟨0x20, 1, ⟨0xC, 0x3F, 0x0, 0x0⟩⟩,
  ⟨0x28, 1, ⟨0x0, 0xFFFFFFFF, 0x0, 0x0⟩⟩,
  ⟨0x30, 1, ⟨0x0, 0x0, 0x0, 0x0⟩⟩,
  ⟨0x38, 1, ⟨0x0, 0x0, 0x7, 0x0⟩⟩,
  ⟨0x40, 1, ⟨0x0, 0x7, 0x0, 0x0⟩⟩,
  ⟨0x48, 1, ⟨0x0, 0x3FFF, 0x0, 0x0⟩⟩,
  ⟨0x50, 1, ⟨0x0, 0x0, 0x0, 0x0⟩⟩,
  ⟨0x58, 1, ⟨0x0, 0xFFFFFFFF, 0x0, 0x0⟩⟩,
  ⟨0x800, 256, ⟨0x0, 0x0, 0xFFFFFFFFFFFFFFFF, 0x0⟩⟩]

/-- The `PWR_` block at 0x1F0000060000. -/
def pwrRows : List RegRow := [
  ⟨0x0, 1, ⟨0x0, 0x0, 0x0, 0x0⟩⟩,
  ⟨0x8, 1, ⟨0x70807080708, 0x0, 0x0, 0x0⟩⟩,
  ⟨0x10, 1, ⟨0x1400000030, 0x3FF0000007F, 0x0, 0x0⟩⟩,
  ⟨0x18, 1, ⟨0x40000000023, 0xFFFF000000FF, 0x0, 0x0⟩⟩,
  ⟨0x20, 1, ⟨0x0, 0xFFFFFFFFFFFFFFFF, 0x0, 0x0⟩⟩,
  ⟨0x28, 1, ⟨0x0, 0x0, 0x0, 0x0⟩⟩,
  ⟨0x30, 1, ⟨0x0, 0x0, 0x0, 0x0⟩⟩,
  ⟨0x40, 7, ⟨0x0, 0xFFFFFFFF, 0x0, 0x0⟩⟩,
  ⟨0x100, 32, ⟨0x0, 0x0, 0x0, 0x0⟩⟩]

/-- The `HST_` block at 0x1F0000070000. -/
def hstRows : List RegRow := [
  ⟨0x0, 1, ⟨0x0, 0x0, 0x3E, 0x0⟩⟩,
  ⟨0x8, 1, ⟨0x6400000000, 0xFFFF0000FFFF, 0x0, 0x0⟩⟩,
  ⟨0x10, 1, ⟨0x0, 0xFFFFFFFFFFFF0000, 0x0, 0x0⟩⟩,
  ⟨0x18, 1, ⟨0x0, 0x0, 0x3A, 0x0⟩⟩,
  ⟨0x20, 1, ⟨0x0, 0x3F, 0x0, 0x0⟩⟩,
  ⟨0x28, 1, ⟨0x0, 0x0, 0x0, 0x0⟩⟩,
  ⟨0x30, 1, ⟨0x0, 0x0, 0x0, 0x0⟩⟩,
  ⟨0x38, 1, ⟨0x1, 0x0, 0x0, 0x0⟩⟩,
  ⟨0x100, 4, ⟨0x0, 0xFFFFFFFFFFFF, 0x0, 0x0⟩⟩]

/-- The `SEC_` block at 0x1F0000080000. -/
def secRows : List RegRow := [
  ⟨0x0, 1, ⟨0x0, 0x0, 0x0, 0x0⟩⟩,
  ⟨0x8, 1, ⟨0x0, 0x0, 0x0, 0x0⟩⟩,
  ⟨0x10, 1, ⟨0x0, 0x0, 0x0, 0x0⟩⟩]

/-- The row that covers offset `off`. -/
def rowAt : List RegRow → Nat → Option RegInfo
  | [], _ => none
  | r :: rs, off =>
    if r.off ≤ off ∧ off < r.off + 8 * r.count ∧ off % 8 = 0 then some r.info else rowAt rs off

/-- What the register at an 8-byte-aligned LPA is; none where no register is (R14). -/
def regInfo (a : Nat) : Option RegInfo :=
  if 0x1F0100000000 ≤ a ∧ a < 0x1F0108000000 then
    let o := a % 0x100000
    let rows := match o / 0x1000 with
      | 4 => domRows
      | 3 => sprRows
      | 5 => turRows
      | 0 => twrRows
      | 6 => vecRows
      | 7 => accRows
      | 8 => xltTowerRows
      | _ => []
    rowAt rows (o % 0x1000)
  else
    let rows := match a / 0x10000 with
      | 0x1F000001 => rollRows
      | 0x1F000002 => memRows
      | 0x1F000003 => xltModuleRows
      | 0x1F000004 => gwlRows
      | 0x1F000005 => keepRows
      | 0x1F000006 => pwrRows
      | 0x1F000007 => hstRows
      | 0x1F000008 => secRows
      | _ => []
    rowAt rows (a % 0x10000)

/-- Reset value of the register at `a`. -/
def regReset (a : Nat) : Dword := match regInfo a with
  | some r => BitVec.ofNat 64 r.reset
  | none => 0

namespace Reg

/-- `ROLL_COUNT` (R67). -/
def rollCount : Nat := 0x1F0000010000
def rollCountCount : RegField := ⟨rollCount, 63, 0⟩
/-- `ROLL_PHASE` (R67). -/
def rollPhase : Nat := 0x1F0000010008
def rollPhasePhase : RegField := ⟨rollPhase, 10, 0⟩
/-- `ROLL_CFG` (R68). -/
def rollCfg : Nat := 0x1F0000010010
def rollCfgSrcModule : RegField := ⟨rollCfg, 63, 52⟩
def rollCfgLateThresh : RegField := ⟨rollCfg, 47, 32⟩
def rollCfgFabricAlignEn : RegField := ⟨rollCfg, 2, 2⟩
def rollCfgOutEn : RegField := ⟨rollCfg, 1, 1⟩
def rollCfgSource : RegField := ⟨rollCfg, 0, 0⟩
/-- `ROLL_STAT` (R68). -/
def rollStat : Nat := 0x1F0000010018
def rollStatAdjCount : RegField := ⟨rollStat, 47, 32⟩
def rollStatRptErr : RegField := ⟨rollStat, 8, 8⟩
def rollStatFreqErr : RegField := ⟨rollStat, 7, 7⟩
def rollStatOverrun : RegField := ⟨rollStat, 6, 6⟩
def rollStatCrcErr : RegField := ⟨rollStat, 5, 5⟩
def rollStatJump : RegField := ⟨rollStat, 4, 4⟩
def rollStatLockLost : RegField := ⟨rollStat, 3, 3⟩
def rollStatFabricLock : RegField := ⟨rollStat, 2, 2⟩
def rollStatInLock : RegField := ⟨rollStat, 1, 1⟩
def rollStatAligned : RegField := ⟨rollStat, 0, 0⟩
/-- `ROLL_OFFSET` (R68). -/
def rollOffset : Nat := 0x1F0000010020
def rollOffsetOffset : RegField := ⟨rollOffset, 31, 0⟩
/-- `ROLL_RPT_BASE` (R69). -/
def rollRptBase : Nat := 0x1F0000010028
def rollRptBaseAddr : RegField := ⟨rollRptBase, 44, 6⟩
/-- `ROLL_RPT_CTRL` (R69). -/
def rollRptCtrl : Nat := 0x1F0000010030
def rollRptCtrlLog2n : RegField := ⟨rollRptCtrl, 5, 1⟩
def rollRptCtrlEn : RegField := ⟨rollRptCtrl, 0, 0⟩
/-- `ROLL_RPT_PROD` (R69). -/
def rollRptProd : Nat := 0x1F0000010038
def rollRptProdProd : RegField := ⟨rollRptProd, 31, 0⟩
/-- `ROLL_RPT_CONS` (R69). -/
def rollRptCons : Nat := 0x1F0000010040
def rollRptConsCons : RegField := ⟨rollRptCons, 31, 0⟩
/-- `ROLL_RPT_DROP` (R69). -/
def rollRptDrop : Nat := 0x1F0000010048
def rollRptDropDrop : RegField := ⟨rollRptDrop, 31, 0⟩
/-- `DOM_FPCSR` (R143). -/
def domFpcsr (t : Nat) : Nat := towerBase t + 0x4000
def domFpcsrRm (t : Nat) : RegField := ⟨domFpcsr t, 7, 5⟩
def domFpcsrFlags (t : Nat) : RegField := ⟨domFpcsr t, 4, 0⟩
/-- `DOM_STAT` (R143). -/
def domStat (t : Nat) : Nat := towerBase t + 0x4008
def domStatInuse (t : Nat) : RegField := ⟨domStat t, 31, 24⟩
def domStatGuardTiles (t : Nat) : RegField := ⟨domStat t, 23, 16⟩
def domStatErrTile (t : Nat) : RegField := ⟨domStat t, 10, 8⟩
def domStatCfgErr (t : Nat) : RegField := ⟨domStat t, 2, 2⟩
def domStatHazard (t : Nat) : RegField := ⟨domStat t, 1, 1⟩
def domStatGuard (t : Nat) : RegField := ⟨domStat t, 0, 0⟩
/-- `DOM_CTRL` (R143). -/
def domCtrl (t : Nat) : Nat := towerBase t + 0x4010
def domCtrlGuardIe (t : Nat) : RegField := ⟨domCtrl t, 0, 0⟩
/-- `DOM_FREE` (R143). -/
def domFree (t : Nat) : Nat := towerBase t + 0x4018
def domFreeGranules (t : Nat) : RegField := ⟨domFree t, 9, 0⟩
/-- `DOM_GUARD_CNT` (R143). -/
def domGuardCnt (t : Nat) : Nat := towerBase t + 0x4020
def domGuardCntCount (t : Nat) : RegField := ⟨domGuardCnt t, 31, 0⟩
/-- `DOM_TILEn` (R143). -/
def domTile (t : Nat) (n : Nat) : Nat := towerBase t + 0x4040 + 8 * n
def domTileCfg (t : Nat) (n : Nat) : RegField := ⟨domTile t n, 63, 63⟩
def domTileInuse (t : Nat) (n : Nat) : RegField := ⟨domTile t n, 62, 62⟩
def domTileGuard (t : Nat) (n : Nat) : RegField := ⟨domTile t n, 61, 61⟩
def domTileGranules (t : Nat) (n : Nat) : RegField := ⟨domTile t n, 41, 32⟩
def domTileClass (t : Nat) (n : Nat) : RegField := ⟨domTile t n, 26, 24⟩
def domTileN (t : Nat) (n : Nat) : RegField := ⟨domTile t n, 23, 16⟩
def domTileM (t : Nat) (n : Nat) : RegField := ⟨domTile t n, 8, 0⟩
/-- `SPR_CFG` (R168). -/
def sprCfg (t : Nat) : Nat := towerBase t + 0x3000
def sprCfgSfmt (t : Nat) : RegField := ⟨sprCfg t, 15, 12⟩
def sprCfgWfmt (t : Nat) : RegField := ⟨sprCfg t, 11, 8⟩
def sprCfgGroup (t : Nat) : RegField := ⟨sprCfg t, 5, 4⟩
def sprCfgStat (t : Nat) : RegField := ⟨sprCfg t, 0, 0⟩
/-- `SPR_STAT` (R168). -/
def sprStat (t : Nat) : Nat := towerBase t + 0x3008
def sprStatErrCode (t : Nat) : RegField := ⟨sprStat t, 31, 24⟩
def sprStatFilling (t : Nat) : RegField := ⟨sprStat t, 6, 6⟩
def sprStatSpareLat (t : Nat) : RegField := ⟨sprStat t, 5, 5⟩
def sprStatShdLoading (t : Nat) : RegField := ⟨sprStat t, 4, 4⟩
def sprStatShdValid (t : Nat) : RegField := ⟨sprStat t, 3, 3⟩
def sprStatActValid (t : Nat) : RegField := ⟨sprStat t, 2, 2⟩
def sprStatBusy (t : Nat) : RegField := ⟨sprStat t, 1, 1⟩
def sprStatCfgErr (t : Nat) : RegField := ⟨sprStat t, 0, 0⟩
/-- `SPR_SPARE` (R168). -/
def sprSpare (t : Nat) : Nat := towerBase t + 0x3010
def sprSpareS1En (t : Nat) : RegField := ⟨sprSpare t, 31, 31⟩
def sprSpareS1Row (t : Nat) : RegField := ⟨sprSpare t, 30, 24⟩
def sprSpareS0En (t : Nat) : RegField := ⟨sprSpare t, 23, 23⟩
def sprSpareS0Row (t : Nat) : RegField := ⟨sprSpare t, 22, 16⟩
def sprSpareS1Bad (t : Nat) : RegField := ⟨sprSpare t, 1, 1⟩
def sprSpareS0Bad (t : Nat) : RegField := ⟨sprSpare t, 0, 0⟩
/-- `SPR_FILL` (R168). -/
def sprFill (t : Nat) : Nat := towerBase t + 0x3018
def sprFillDuty (t : Nat) : RegField := ⟨sprFill t, 14, 8⟩
def sprFillEn (t : Nat) : RegField := ⟨sprFill t, 0, 0⟩
/-- `SPR_ROWS` (R168). -/
def sprRows (t : Nat) : Nat := towerBase t + 0x3020
def sprRowsRows (t : Nat) : RegField := ⟨sprRows t, 63, 0⟩
/-- `SPR_WAIT` (R168). -/
def sprWait (t : Nat) : Nat := towerBase t + 0x3028
def sprWaitWait (t : Nat) : RegField := ⟨sprWait t, 63, 0⟩
/-- `SPR_FILL_CNT` (R168). -/
def sprFillCnt (t : Nat) : Nat := towerBase t + 0x3030
def sprFillCntFill (t : Nat) : RegField := ⟨sprFillCnt t, 63, 0⟩
/-- `TUR_FPCSR` (R198). -/
def turFpcsr (t : Nat) : Nat := towerBase t + 0x5000
def turFpcsrRm (t : Nat) : RegField := ⟨turFpcsr t, 7, 5⟩
def turFpcsrFlags (t : Nat) : RegField := ⟨turFpcsr t, 4, 0⟩
/-- `TUR_MODE` (R198). -/
def turMode (t : Nat) : Nat := towerBase t + 0x5008
def turModeP16inf (t : Nat) : RegField := ⟨turMode t, 0, 0⟩
/-- `TUR_HIST` (R198). -/
def turHist (t : Nat) : Nat := towerBase t + 0x5010
def turHistBase (t : Nat) : RegField := ⟨turHist t, 31, 16⟩
def turHistAccum (t : Nat) : RegField := ⟨turHist t, 8, 8⟩
def turHistWidth (t : Nat) : RegField := ⟨turHist t, 2, 0⟩
/-- `TUR_STAT` (R198). -/
def turStat (t : Nat) : Nat := towerBase t + 0x5018
def turStatErrCode (t : Nat) : RegField := ⟨turStat t, 31, 24⟩
def turStatBusy (t : Nat) : RegField := ⟨turStat t, 2, 2⟩
def turStatEmptyrow (t : Nat) : RegField := ⟨turStat t, 1, 1⟩
def turStatErr (t : Nat) : RegField := ⟨turStat t, 0, 0⟩
/-- `TUR_SAT_CNT` (R198). -/
def turSatCnt (t : Nat) : Nat := towerBase t + 0x5020
def turSatCntCount (t : Nat) : RegField := ⟨turSatCnt t, 63, 0⟩
/-- `TUR_EMPTY_CNT` (R198). -/
def turEmptyCnt (t : Nat) : Nat := towerBase t + 0x5028
def turEmptyCntCount (t : Nat) : RegField := ⟨turEmptyCnt t, 31, 0⟩
/-- `TUR_PROGV` (R198). -/
def turProgv (t : Nat) : Nat := towerBase t + 0x5030
def turProgvValid (t : Nat) : RegField := ⟨turProgv t, 31, 1⟩
/-- `TUR_RESUME` (R198). -/
def turResume (t : Nat) : Nat := towerBase t + 0x5038
def turResumeNext (t : Nat) : RegField := ⟨turResume t, 15, 0⟩
/-- `TUR_ELEMS` (R198). -/
def turElems (t : Nat) : Nat := towerBase t + 0x5040
def turElemsElems (t : Nat) : RegField := ⟨turElems t, 63, 0⟩
/-- `TWR_TSTAT` (R225). -/
def twrTstat (t : Nat) : Nat := towerBase t + 0x200
def twrTstatErrCode (t : Nat) : RegField := ⟨twrTstat t, 31, 24⟩
def twrTstatInuse (t : Nat) : RegField := ⟨twrTstat t, 23, 16⟩
def twrTstatStopTile (t : Nat) : RegField := ⟨twrTstat t, 11, 9⟩
def twrTstatCfgDrop (t : Nat) : RegField := ⟨twrTstat t, 8, 8⟩
def twrTstatBusy (t : Nat) : RegField := ⟨twrTstat t, 2, 2⟩
def twrTstatStopped (t : Nat) : RegField := ⟨twrTstat t, 1, 1⟩
def twrTstatErr (t : Nat) : RegField := ⟨twrTstat t, 0, 0⟩
/-- `TWR_TSTART` (R225). -/
def twrTstart (t : Nat) : Nat := towerBase t + 0x208
def twrTstartRow (t : Nat) : RegField := ⟨twrTstart t, 6, 0⟩
/-- `TWR_SRD_WAIT` (R225). -/
def twrSrdWait (t : Nat) : Nat := towerBase t + 0x210
def twrSrdWaitWait (t : Nat) : RegField := ⟨twrSrdWait t, 63, 0⟩
/-- `TWR_SWR_WAIT` (R225). -/
def twrSwrWait (t : Nat) : Nat := towerBase t + 0x218
def twrSwrWaitWait (t : Nat) : RegField := ⟨twrSwrWait t, 63, 0⟩
/-- `TWR_TCFGn` (R225). -/
def twrTcfg (t : Nat) (n : Nat) : Nat := towerBase t + 0x240 + 8 * n
def twrTcfgRbytes (t : Nat) (n : Nat) : RegField := ⟨twrTcfg t n, 24, 16⟩
def twrTcfgRows (t : Nat) (n : Nat) : RegField := ⟨twrTcfg t n, 7, 0⟩
/-- `VEC_FPCSR` (R258). -/
def vecFpcsr (t : Nat) : Nat := towerBase t + 0x6000
def vecFpcsrRm (t : Nat) : RegField := ⟨vecFpcsr t, 7, 5⟩
def vecFpcsrFlags (t : Nat) : RegField := ⟨vecFpcsr t, 4, 0⟩
/-- `VEC_MODE` (R258). -/
def vecMode (t : Nat) : Nat := towerBase t + 0x6008
def vecModeP16inf (t : Nat) : RegField := ⟨vecMode t, 0, 0⟩
/-- `VEC_CTRL` (R258). -/
def vecCtrl (t : Nat) : Nat := towerBase t + 0x6010
def vecCtrlFaultAll (t : Nat) : RegField := ⟨vecCtrl t, 0, 0⟩
/-- `VEC_SPAN` (R258). -/
def vecSpan (t : Nat) : Nat := towerBase t + 0x6018
def vecSpanFmtBad (t : Nat) : RegField := ⟨vecSpan t, 63, 63⟩
def vecSpanFmt (t : Nat) : RegField := ⟨vecSpan t, 35, 32⟩
def vecSpanVl (t : Nat) : RegField := ⟨vecSpan t, 15, 0⟩
/-- `VEC_STAT` (R258). -/
def vecStat (t : Nat) : Nat := towerBase t + 0x6020
def vecStatErrCode (t : Nat) : RegField := ⟨vecStat t, 31, 24⟩
def vecStatBusy (t : Nat) : RegField := ⟨vecStat t, 2, 2⟩
def vecStatStopped (t : Nat) : RegField := ⟨vecStat t, 1, 1⟩
def vecStatErr (t : Nat) : RegField := ⟨vecStat t, 0, 0⟩
/-- `VEC_INUSE` (R258). -/
def vecInuse (t : Nat) : Nat := towerBase t + 0x6028
def vecInuseInuse (t : Nat) : RegField := ⟨vecInuse t, 31, 0⟩
/-- `VEC_SAT_CNT` (R258). -/
def vecSatCnt (t : Nat) : Nat := towerBase t + 0x6030
def vecSatCntCount (t : Nat) : RegField := ⟨vecSatCnt t, 63, 0⟩
/-- `VEC_FAULT` (R258). -/
def vecFault (t : Nat) : Nat := towerBase t + 0x6038
def vecFaultInsn (t : Nat) : RegField := ⟨vecFault t, 63, 32⟩
def vecFaultElem (t : Nat) : RegField := ⟨vecFault t, 31, 16⟩
def vecFaultWrite (t : Nat) : RegField := ⟨vecFault t, 4, 4⟩
def vecFaultKind (t : Nat) : RegField := ⟨vecFault t, 3, 0⟩
/-- `VEC_FAULT_ADDR` (R258). -/
def vecFaultAddr (t : Nat) : Nat := towerBase t + 0x6040
def vecFaultAddrAddr (t : Nat) : RegField := ⟨vecFaultAddr t, 63, 0⟩
/-- `VEC_PROBE_CNT` (R258). -/
def vecProbeCnt (t : Nat) : Nat := towerBase t + 0x6048
def vecProbeCntCount (t : Nat) : RegField := ⟨vecProbeCnt t, 15, 0⟩
/-- `VEC_ID` (R258). -/
def vecId (t : Nat) : Nat := towerBase t + 0x6050
def vecIdLanes (t : Nat) : RegField := ⟨vecId t, 31, 16⟩
def vecIdRegbytes (t : Nat) : RegField := ⟨vecId t, 15, 0⟩
/-- `TWR_STAT` (R336). -/
def twrStat (t : Nat) : Nat := towerBase t + 0x0
def twrStatMchk (t : Nat) : RegField := ⟨twrStat t, 7, 7⟩
def twrStatSmpErr (t : Nat) : RegField := ⟨twrStat t, 3, 3⟩
def twrStatL1Perr (t : Nat) : RegField := ⟨twrStat t, 2, 2⟩
def twrStatWdogExp (t : Nat) : RegField := ⟨twrStat t, 1, 1⟩
def twrStatSampleDegraded (t : Nat) : RegField := ⟨twrStat t, 0, 0⟩
/-- `TWR_ICTRL` (R336). -/
def twrIctrl (t : Nat) : Nat := towerBase t + 0x8
def twrIctrlThresh (t : Nat) : RegField := ⟨twrIctrl t, 2, 0⟩
/-- `TWR_IEN` (R336). -/
def twrIen (t : Nat) : Nat := towerBase t + 0x10
def twrIenEnLevel (t : Nat) : RegField := ⟨twrIen t, 22, 16⟩
def twrIenEnLatch (t : Nat) : RegField := ⟨twrIen t, 3, 0⟩
/-- `TWR_IPEND` (R336). -/
def twrIpend (t : Nat) : Nat := towerBase t + 0x18
def twrIpendLevel (t : Nat) : RegField := ⟨twrIpend t, 22, 16⟩
def twrIpendLatch (t : Nat) : RegField := ⟨twrIpend t, 3, 0⟩
/-- `TWR_IPRIO0` (R336). -/
def twrIprio0 (t : Nat) : Nat := towerBase t + 0x20
/-- `TWR_IPRIO1` (R336). -/
def twrIprio1 (t : Nat) : Nat := towerBase t + 0x28
/-- `TWR_DOORBELL` (R336). -/
def twrDoorbell (t : Nat) : Nat := towerBase t + 0x30
def twrDoorbellMsg (t : Nat) : RegField := ⟨twrDoorbell t, 63, 0⟩
/-- `TWR_TIMER` (R336). -/
def twrTimer (t : Nat) : Nat := towerBase t + 0x40
def twrTimerOwner (t : Nat) : RegField := ⟨twrTimer t, 63, 62⟩
def twrTimerCount (t : Nat) : RegField := ⟨twrTimer t, 31, 0⟩
/-- `TWR_WDOG` (R336). -/
def twrWdog (t : Nat) : Nat := towerBase t + 0x48
def twrWdogInterval (t : Nat) : RegField := ⟨twrWdog t, 31, 0⟩
/-- `TWR_SMP_CTRL` (R336). -/
def twrSmpCtrl (t : Nat) : Nat := towerBase t + 0x50
def twrSmpCtrlInterval (t : Nat) : RegField := ⟨twrSmpCtrl t, 63, 32⟩
def twrSmpCtrlLog2n (t : Nat) : RegField := ⟨twrSmpCtrl t, 5, 1⟩
def twrSmpCtrlEn (t : Nat) : RegField := ⟨twrSmpCtrl t, 0, 0⟩
/-- `TWR_SMP_BASE` (R336). -/
def twrSmpBase (t : Nat) : Nat := towerBase t + 0x58
def twrSmpBaseAddr (t : Nat) : RegField := ⟨twrSmpBase t, 44, 4⟩
/-- `TWR_SMP_PROD` (R336). -/
def twrSmpProd (t : Nat) : Nat := towerBase t + 0x60
def twrSmpProdDrop (t : Nat) : RegField := ⟨twrSmpProd t, 63, 32⟩
def twrSmpProdProd (t : Nat) : RegField := ⟨twrSmpProd t, 31, 0⟩
/-- `TWR_SMP_CONS` (R336). -/
def twrSmpCons (t : Nat) : Nat := towerBase t + 0x68
def twrSmpConsCons (t : Nat) : RegField := ⟨twrSmpCons t, 31, 0⟩
/-- `TWR_CYCLES` (R336). -/
def twrCycles (t : Nat) : Nat := towerBase t + 0x80
def twrCyclesCycles (t : Nat) : RegField := ⟨twrCycles t, 63, 0⟩
/-- `TWR_INSTRET` (R336). -/
def twrInstret (t : Nat) : Nat := towerBase t + 0x88
def twrInstretInstret (t : Nat) : RegField := ⟨twrInstret t, 63, 0⟩
/-- `TWR_L1_MISS` (R336). -/
def twrL1Miss (t : Nat) : Nat := towerBase t + 0x90
def twrL1MissMiss (t : Nat) : RegField := ⟨twrL1Miss t, 63, 0⟩
/-- `TWR_L1_PERR` (R336). -/
def twrL1Perr (t : Nat) : Nat := towerBase t + 0x98
def twrL1PerrPerr (t : Nat) : RegField := ⟨twrL1Perr t, 63, 0⟩
/-- `ACC_STAT` (R371). -/
def accStat (t : Nat) : Nat := towerBase t + 0x7000
def accStatStopped (t : Nat) : RegField := ⟨accStat t, 63, 48⟩
def accStatBusy (t : Nat) : RegField := ⟨accStat t, 47, 32⟩
def accStatErrCode (t : Nat) : RegField := ⟨accStat t, 31, 24⟩
def accStatErrSlot (t : Nat) : RegField := ⟨accStat t, 23, 20⟩
def accStatErr (t : Nat) : RegField := ⟨accStat t, 0, 0⟩
/-- `ACC_EVT` (R371). -/
def accEvt (t : Nat) : Nat := towerBase t + 0x7008
def accEvtEvt (t : Nat) : RegField := ⟨accEvt t, 15, 0⟩
/-- `ACC_TRK` (R371). -/
def accTrk (t : Nat) : Nat := towerBase t + 0x7010
def accTrkHigh (t : Nat) : RegField := ⟨accTrk t, 45, 32⟩
def accTrkUsed (t : Nat) : RegField := ⟨accTrk t, 13, 0⟩
/-- `ACC_TRK_CFG` (R371). -/
def accTrkCfg (t : Nat) : Nat := towerBase t + 0x7018
def accTrkCfgSlotMax (t : Nat) : RegField := ⟨accTrkCfg t, 11, 0⟩
/-- `ACC_RD_BYTES` (R371). -/
def accRdBytes (t : Nat) : Nat := towerBase t + 0x7020
def accRdBytesBytes (t : Nat) : RegField := ⟨accRdBytes t, 63, 0⟩
/-- `ACC_WR_BYTES` (R371). -/
def accWrBytes (t : Nat) : Nat := towerBase t + 0x7028
def accWrBytesBytes (t : Nat) : RegField := ⟨accWrBytes t, 63, 0⟩
/-- `ACC_TRK_WAIT` (R371). -/
def accTrkWait (t : Nat) : Nat := towerBase t + 0x7030
def accTrkWaitWait (t : Nat) : RegField := ⟨accTrkWait t, 63, 0⟩
/-- `ACC_SLOTn` (R371). -/
def accSlot (t : Nat) (n : Nat) : Nat := towerBase t + 0x7040 + 8 * n
def accSlotState (t : Nat) (n : Nat) : RegField := ⟨accSlot t n, 63, 62⟩
def accSlotDepth (t : Nat) (n : Nat) : RegField := ⟨accSlot t n, 60, 58⟩
def accSlotOut (t : Nat) (n : Nat) : RegField := ⟨accSlot t n, 45, 32⟩
def accSlotRow (t : Nat) (n : Nat) : RegField := ⟨accSlot t n, 31, 16⟩
/-- `MEM_CFG` (R372). -/
def memCfg : Nat := 0x1F0000020000
def memCfgMigRate : RegField := ⟨memCfg, 47, 32⟩
def memCfgReserveNext : RegField := ⟨memCfg, 0, 0⟩
/-- `MEM_STAT` (R372). -/
def memStat : Nat := 0x1F0000020008
def memStatN : RegField := ⟨memStat, 28, 24⟩
def memStatNomem : RegField := ⟨memStat, 7, 7⟩
def memStatDegraded : RegField := ⟨memStat, 6, 6⟩
def memStatMigrating : RegField := ⟨memStat, 5, 5⟩
def memStatSpare : RegField := ⟨memStat, 4, 4⟩
def memStatReserve : RegField := ⟨memStat, 3, 3⟩
/-- `MEM_SIZE` (R372). -/
def memSize : Nat := 0x1F0000020010
def memSizeSize : RegField := ⟨memSize, 44, 0⟩
/-- `MEM_UE_CNT` (R372). -/
def memUeCnt : Nat := 0x1F0000020018
def memUeCntCount : RegField := ⟨memUeCnt, 31, 0⟩
/-- `MEM_POISON_CNT` (R372). -/
def memPoisonCnt : Nat := 0x1F0000020020
def memPoisonCntCount : RegField := ⟨memPoisonCnt, 31, 0⟩
/-- `MEM_TRAIN` (R372). -/
def memTrain : Nat := 0x1F0000020028
def memTrainMs : RegField := ⟨memTrain, 31, 16⟩
def memTrainFull : RegField := ⟨memTrain, 0, 0⟩
/-- `MEM_DEVn` (R372). -/
def memDev (n : Nat) : Nat := 0x1F0000020080 + 8 * n
def memDevState (n : Nat) : RegField := ⟨memDev n, 63, 62⟩
def memDevIndex (n : Nat) : RegField := ⟨memDev n, 55, 48⟩
def memDevCrcRetry (n : Nat) : RegField := ⟨memDev n, 47, 32⟩
def memDevCe (n : Nat) : RegField := ⟨memDev n, 31, 0⟩
/-- `XLT_CTRL` (R406). -/
def xltCtrl : Nat := 0x1F0000030000
def xltCtrlFqEn : RegField := ⟨xltCtrl, 3, 3⟩
def xltCtrlInvIe : RegField := ⟨xltCtrl, 2, 2⟩
def xltCtrlQfullIe : RegField := ⟨xltCtrl, 1, 1⟩
def xltCtrlFqIe : RegField := ⟨xltCtrl, 0, 0⟩
/-- `XLT_PFREQ` (R406). -/
def xltPfreq (t : Nat) : Nat := towerBase t + 0x8000
def xltPfreqCount (t : Nat) : RegField := ⟨xltPfreq t, 63, 48⟩
def xltPfreqPage (t : Nat) : RegField := ⟨xltPfreq t, 47, 16⟩
def xltPfreqWrite (t : Nat) : RegField := ⟨xltPfreq t, 0, 0⟩
/-- `XLT_STAT` (R406). -/
def xltStat : Nat := 0x1F0000030008
def xltStatMig : RegField := ⟨xltStat, 7, 5⟩
def xltStatResStale : RegField := ⟨xltStat, 3, 3⟩
def xltStatInvRej : RegField := ⟨xltStat, 2, 2⟩
def xltStatFqErr : RegField := ⟨xltStat, 1, 1⟩
def xltStatQfull : RegField := ⟨xltStat, 0, 0⟩
/-- `XLT_PF_DROP` (R406). -/
def xltPfDrop (t : Nat) : Nat := towerBase t + 0x8008
def xltPfDropCount (t : Nat) : RegField := ⟨xltPfDrop t, 31, 0⟩
/-- `XLT_FQ_BASE` (R406). -/
def xltFqBase : Nat := 0x1F0000030010
def xltFqBaseAddr : RegField := ⟨xltFqBase, 44, 6⟩
/-- `XLT_TLB_MISS` (R406). -/
def xltTlbMiss (t : Nat) : Nat := towerBase t + 0x8010
def xltTlbMissMiss (t : Nat) : RegField := ⟨xltTlbMiss t, 63, 0⟩
/-- `XLT_FQ_PROD` (R406). -/
def xltFqProd : Nat := 0x1F0000030018
def xltFqProdProd : RegField := ⟨xltFqProd, 31, 0⟩
/-- `XLT_WALKS` (R406). -/
def xltWalks (t : Nat) : Nat := towerBase t + 0x8018
def xltWalksWalks (t : Nat) : RegField := ⟨xltWalks t, 63, 0⟩
/-- `XLT_FQ_CONS` (R406). -/
def xltFqCons : Nat := 0x1F0000030020
def xltFqConsCons : RegField := ⟨xltFqCons, 31, 0⟩
/-- `XLT_FQ_OVF` (R406). -/
def xltFqOvf : Nat := 0x1F0000030028
def xltFqOvfCount : RegField := ⟨xltFqOvf, 31, 0⟩
/-- `XLT_FQ_JOIN` (R406). -/
def xltFqJoin : Nat := 0x1F0000030030
def xltFqJoinCount : RegField := ⟨xltFqJoin, 31, 0⟩
/-- `XLT_FQ_RESOLVE` (R406). -/
def xltFqResolve : Nat := 0x1F0000030038
def xltFqResolveAction : RegField := ⟨xltFqResolve, 32, 32⟩
def xltFqResolveId : RegField := ⟨xltFqResolve, 31, 0⟩
/-- `XLT_FQ_PEND` (R406). -/
def xltFqPend : Nat := 0x1F0000030040
def xltFqPendHeld : RegField := ⟨xltFqPend, 25, 16⟩
def xltFqPendUnres : RegField := ⟨xltFqPend, 9, 0⟩
/-- `XLT_INV_ADDR` (R406). -/
def xltInvAddr : Nat := 0x1F0000030048
def xltInvAddrAddr : RegField := ⟨xltInvAddr, 47, 16⟩
/-- `XLT_INV_CTRL` (R406). -/
def xltInvCtrl : Nat := 0x1F0000030050
def xltInvCtrlAll : RegField := ⟨xltInvCtrl, 16, 16⟩
def xltInvCtrlAsid : RegField := ⟨xltInvCtrl, 15, 8⟩
def xltInvCtrlLog2size : RegField := ⟨xltInvCtrl, 6, 1⟩
def xltInvCtrlGo : RegField := ⟨xltInvCtrl, 0, 0⟩
/-- `XLT_INV_DONE` (R406). -/
def xltInvDone : Nat := 0x1F0000030058
def xltInvDoneDone : RegField := ⟨xltInvDone, 31, 0⟩
/-- `XLT_ROOTn` (R406). -/
def xltRoot (n : Nat) : Nat := 0x1F0000030800 + 8 * n
def xltRootTable (n : Nat) : RegField := ⟨xltRoot n, 44, 12⟩
def xltRootV (n : Nat) : RegField := ⟨xltRoot n, 0, 0⟩
/-- `GWL_ID` (R441). -/
def gwlId : Nat := 0x1F0000040000
def gwlIdZs : RegField := ⟨gwlId, 43, 40⟩
def gwlIdYs : RegField := ⟨gwlId, 39, 36⟩
def gwlIdXs : RegField := ⟨gwlId, 35, 32⟩
def gwlIdModule : RegField := ⟨gwlId, 11, 0⟩
/-- `GWL_CTRL` (R441). -/
def gwlCtrl : Nat := 0x1F0000040008
def gwlCtrlTimeout : RegField := ⟨gwlCtrl, 47, 32⟩
def gwlCtrlDetourEn : RegField := ⟨gwlCtrl, 1, 1⟩
def gwlCtrlPortIe : RegField := ⟨gwlCtrl, 0, 0⟩
/-- `GWL_STAT` (R441). -/
def gwlStat : Nat := 0x1F0000040010
def gwlStatDetouring : RegField := ⟨gwlStat, 3, 3⟩
def gwlStatDegraded : RegField := ⟨gwlStat, 2, 2⟩
def gwlStatPortChg : RegField := ⟨gwlStat, 1, 1⟩
def gwlStatMiswire : RegField := ⟨gwlStat, 0, 0⟩
/-- `GWL_DIR` (R441). -/
def gwlDir : Nat := 0x1F0000040018
/-- `GWL_TX_BYTES` (R441). -/
def gwlTxBytes : Nat := 0x1F0000040020
def gwlTxBytesBytes : RegField := ⟨gwlTxBytes, 63, 0⟩
/-- `GWL_RX_BYTES` (R441). -/
def gwlRxBytes : Nat := 0x1F0000040028
def gwlRxBytesBytes : RegField := ⟨gwlRxBytes, 63, 0⟩
/-- `GWL_REFUSED_CNT` (R441). -/
def gwlRefusedCnt : Nat := 0x1F0000040030
def gwlRefusedCntCount : RegField := ⟨gwlRefusedCnt, 31, 0⟩
/-- `GWL_UNREACH_CNT` (R441). -/
def gwlUnreachCnt : Nat := 0x1F0000040038
def gwlUnreachCntCount : RegField := ⟨gwlUnreachCnt, 31, 0⟩
/-- `GWL_TIMEOUT_CNT` (R441). -/
def gwlTimeoutCnt : Nat := 0x1F0000040040
def gwlTimeoutCntCount : RegField := ⟨gwlTimeoutCnt, 31, 0⟩
/-- `GWL_SLOT_SEL` (R441). -/
def gwlSlotSel : Nat := 0x1F0000040048
def gwlSlotSelSlot : RegField := ⟨gwlSlotSel, 8, 0⟩
/-- `GWL_SLOT_STAT` (R441). -/
def gwlSlotStat : Nat := 0x1F0000040050
def gwlSlotStatGen : RegField := ⟨gwlSlotStat, 63, 32⟩
def gwlSlotStatBound : RegField := ⟨gwlSlotStat, 31, 31⟩
def gwlSlotStatUp : RegField := ⟨gwlSlotStat, 30, 30⟩
def gwlSlotStatHeldAlign : RegField := ⟨gwlSlotStat, 29, 29⟩
def gwlSlotStatErr : RegField := ⟨gwlSlotStat, 28, 28⟩
def gwlSlotStatArrived : RegField := ⟨gwlSlotStat, 7, 0⟩
/-- `GWL_PORTn` (R441). -/
def gwlPort (n : Nat) : Nat := 0x1F0000040100 + 8 * n
def gwlPortState (n : Nat) : RegField := ⟨gwlPort n, 63, 61⟩
def gwlPortBadlanes (n : Nat) : RegField := ⟨gwlPort n, 55, 48⟩
def gwlPortPartner (n : Nat) : RegField := ⟨gwlPort n, 43, 32⟩
def gwlPortPport (n : Nat) : RegField := ⟨gwlPort n, 31, 27⟩
def gwlPortHalf (n : Nat) : RegField := ⟨gwlPort n, 1, 1⟩
def gwlPortRetire (n : Nat) : RegField := ⟨gwlPort n, 0, 0⟩
/-- `GWL_PCNTn` (R441). -/
def gwlPcnt (n : Nat) : Nat := 0x1F0000040200 + 8 * n
def gwlPcntRetrains (n : Nat) : RegField := ⟨gwlPcnt n, 63, 48⟩
def gwlPcntReplays (n : Nat) : RegField := ⟨gwlPcnt n, 47, 24⟩
def gwlPcntCrcErr (n : Nat) : RegField := ⟨gwlPcnt n, 23, 0⟩
/-- `KEEP_STAT` (R476). -/
def keepStat : Nat := 0x1F0000050000
def keepStatChannels : RegField := ⟨keepStat, 46, 32⟩
def keepStatTowers : RegField := ⟨keepStat, 31, 24⟩
def keepStatAdmErr : RegField := ⟨keepStat, 3, 3⟩
def keepStatLeaderOnly : RegField := ⟨keepStat, 2, 2⟩
def keepStatAdmOvf : RegField := ⟨keepStat, 1, 1⟩
def keepStatReady : RegField := ⟨keepStat, 0, 0⟩
/-- `KEEP_CFG` (R476). -/
def keepCfg : Nat := 0x1F0000050008
def keepCfgSlice : RegField := ⟨keepCfg, 39, 32⟩
def keepCfgReexecMax : RegField := ⟨keepCfg, 26, 24⟩
def keepCfgXferMax : RegField := ⟨keepCfg, 10, 0⟩
/-- `KEEP_ADM_BASE` (R476). -/
def keepAdmBase : Nat := 0x1F0000050010
def keepAdmBaseAddr : RegField := ⟨keepAdmBase, 44, 6⟩
/-- `KEEP_ADM_RBASE` (R476). -/
def keepAdmRbase : Nat := 0x1F0000050018
def keepAdmRbaseAddr : RegField := ⟨keepAdmRbase, 44, 5⟩
/-- `KEEP_ADM_CTRL` (R476). -/
def keepAdmCtrl : Nat := 0x1F0000050020
def keepAdmCtrlLog2n : RegField := ⟨keepAdmCtrl, 5, 1⟩
def keepAdmCtrlEn : RegField := ⟨keepAdmCtrl, 0, 0⟩
/-- `KEEP_ADM_PROD` (R476). -/
def keepAdmProd : Nat := 0x1F0000050028
def keepAdmProdProd : RegField := ⟨keepAdmProd, 31, 0⟩
/-- `KEEP_ADM_DONE` (R476). -/
def keepAdmDone : Nat := 0x1F0000050030
def keepAdmDoneDone : RegField := ⟨keepAdmDone, 31, 0⟩
/-- `KEEP_IRQ_STAT` (R476). -/
def keepIrqStat : Nat := 0x1F0000050038
def keepIrqStatFaultIdx : RegField := ⟨keepIrqStat, 29, 16⟩
def keepIrqStatChanFault : RegField := ⟨keepIrqStat, 2, 2⟩
def keepIrqStatCq : RegField := ⟨keepIrqStat, 1, 1⟩
def keepIrqStatAdmin : RegField := ⟨keepIrqStat, 0, 0⟩
/-- `KEEP_IRQ_EN` (R476). -/
def keepIrqEn : Nat := 0x1F0000050040
def keepIrqEnEn : RegField := ⟨keepIrqEn, 2, 0⟩
/-- `KEEP_CHAN_SEL` (R476). -/
def keepChanSel : Nat := 0x1F0000050048
def keepChanSelIndex : RegField := ⟨keepChanSel, 13, 0⟩
/-- `KEEP_CHAN_STAT` (R476). -/
def keepChanStat : Nat := 0x1F0000050050
def keepChanStatGen : RegField := ⟨keepChanStat, 63, 48⟩
def keepChanStatState : RegField := ⟨keepChanStat, 47, 46⟩
def keepChanStatPrio : RegField := ⟨keepChanStat, 34, 32⟩
def keepChanStatSqCons : RegField := ⟨keepChanStat, 31, 16⟩
def keepChanStatCqPost : RegField := ⟨keepChanStat, 15, 0⟩
/-- `KEEP_DB_REJ` (R476). -/
def keepDbRej : Nat := 0x1F0000050058
def keepDbRejCount : RegField := ⟨keepDbRej, 31, 0⟩
/-- `KEEP_CQ_PENDn` (R476). -/
def keepCqPend (n : Nat) : Nat := 0x1F0000050800 + 8 * n
def keepCqPendPend (n : Nat) : RegField := ⟨keepCqPend n, 63, 0⟩
/-- `PWR_STAT` (R504). -/
def pwrStat : Nat := 0x1F0000060000
def pwrStatThrottle : RegField := ⟨pwrStat, 38, 32⟩
def pwrStatAlert : RegField := ⟨pwrStat, 2, 2⟩
def pwrStatGated : RegField := ⟨pwrStat, 1, 1⟩
def pwrStatFloor : RegField := ⟨pwrStat, 0, 0⟩
/-- `PWR_CAP` (R504). -/
def pwrCap : Nat := 0x1F0000060008
def pwrCapInForce : RegField := ⟨pwrCap, 47, 32⟩
def pwrCapSmb : RegField := ⟨pwrCap, 31, 16⟩
def pwrCapDrv : RegField := ⟨pwrCap, 15, 0⟩
/-- `PWR_FILL` (R504). -/
def pwrFill : Nat := 0x1F0000060010
def pwrFillRampUs : RegField := ⟨pwrFill, 41, 32⟩
def pwrFillStart : RegField := ⟨pwrFill, 6, 0⟩
/-- `PWR_DROOP_CFG` (R504). -/
def pwrDroopCfg : Nat := 0x1F0000060018
def pwrDroopCfgReport : RegField := ⟨pwrDroopCfg, 47, 32⟩
def pwrDroopCfgThresh : RegField := ⟨pwrDroopCfg, 7, 0⟩
/-- `PWR_DROOP_CNT` (R504). -/
def pwrDroopCnt : Nat := 0x1F0000060020
def pwrDroopCntStretch : RegField := ⟨pwrDroopCnt, 63, 0⟩
/-- `PWR_ENERGY` (R504). -/
def pwrEnergy : Nat := 0x1F0000060028
def pwrEnergyUj : RegField := ⟨pwrEnergy, 63, 0⟩
/-- `PWR_COOLANT` (R504). -/
def pwrCoolant : Nat := 0x1F0000060030
def pwrCoolantOutlet : RegField := ⟨pwrCoolant, 15, 8⟩
def pwrCoolantInlet : RegField := ⟨pwrCoolant, 7, 0⟩
/-- `PWR_THR_CNTn` (R504). -/
def pwrThrCnt (n : Nat) : Nat := 0x1F0000060040 + 8 * n
def pwrThrCntRolls (n : Nat) : RegField := ⟨pwrThrCnt n, 31, 0⟩
/-- `PWR_REGIONn` (R504). -/
def pwrRegion (n : Nat) : Nat := 0x1F0000060100 + 8 * n
def pwrRegionTemp (n : Nat) : RegField := ⟨pwrRegion n, 63, 56⟩
def pwrRegionHeld (n : Nat) : RegField := ⟨pwrRegion n, 19, 16⟩
def pwrRegionMarginMax (n : Nat) : RegField := ⟨pwrRegion n, 14, 12⟩
def pwrRegionCeil (n : Nat) : RegField := ⟨pwrRegion n, 10, 8⟩
def pwrRegionAsk (n : Nat) : RegField := ⟨pwrRegion n, 6, 4⟩
def pwrRegionOp (n : Nat) : RegField := ⟨pwrRegion n, 2, 0⟩
/-- `HST_STAT` (R558). -/
def hstStat : Nat := 0x1F0000070000
def hstStatMemerr : RegField := ⟨hstStat, 5, 5⟩
def hstStatTimeout : RegField := ⟨hstStat, 4, 4⟩
def hstStatHosterr : RegField := ⟨hstStat, 3, 3⟩
def hstStatNotready : RegField := ⟨hstStat, 2, 2⟩
def hstStatHole : RegField := ⟨hstStat, 1, 1⟩
def hstStatReady : RegField := ⟨hstStat, 0, 0⟩
/-- `HST_RESET` (R558). -/
def hstReset : Nat := 0x1F0000070030
def hstResetKey : RegField := ⟨hstReset, 15, 0⟩
/-- `HST_CTRL` (R558). -/
def hstCtrl : Nat := 0x1F0000070008
def hstCtrlTimeout : RegField := ⟨hstCtrl, 47, 32⟩
def hstCtrlVector : RegField := ⟨hstCtrl, 15, 0⟩
/-- `HST_RST_CAUSE` (R558). -/
def hstRstCause : Nat := 0x1F0000070038
def hstRstCauseWdogRun : RegField := ⟨hstRstCause, 9, 8⟩
def hstRstCauseCause : RegField := ⟨hstRstCause, 7, 0⟩
/-- `HST_WIN` (R558). -/
def hstWin : Nat := 0x1F0000070010
def hstWinOffset : RegField := ⟨hstWin, 63, 16⟩
/-- `HST_UCIEn` (R558). -/
def hstUcie (n : Nat) : Nat := 0x1F0000070100 + 8 * n
def hstUcieState (n : Nat) : RegField := ⟨hstUcie n, 63, 61⟩
def hstUcieRepaired (n : Nat) : RegField := ⟨hstUcie n, 55, 48⟩
def hstUcieRetrains (n : Nat) : RegField := ⟨hstUcie n, 47, 32⟩
def hstUcieRetries (n : Nat) : RegField := ⟨hstUcie n, 31, 0⟩
/-- `HST_IRQ_PEND` (R558). -/
def hstIrqPend : Nat := 0x1F0000070018
def hstIrqPendAttach : RegField := ⟨hstIrqPend, 5, 5⟩
def hstIrqPendPort : RegField := ⟨hstIrqPend, 4, 4⟩
def hstIrqPendInv : RegField := ⟨hstIrqPend, 3, 3⟩
def hstIrqPendQfull : RegField := ⟨hstIrqPend, 2, 2⟩
def hstIrqPendFq : RegField := ⟨hstIrqPend, 1, 1⟩
def hstIrqPendKeep : RegField := ⟨hstIrqPend, 0, 0⟩
/-- `HST_IRQ_EN` (R558). -/
def hstIrqEn : Nat := 0x1F0000070020
def hstIrqEnEn : RegField := ⟨hstIrqEn, 5, 0⟩
/-- `HST_IRQ_EOI` (R558). -/
def hstIrqEoi : Nat := 0x1F0000070028
def hstIrqEoiEoi : RegField := ⟨hstIrqEoi, 0, 0⟩
/-- `SEC_STAT` (R558). -/
def secStat : Nat := 0x1F0000080000
def secStatStageCode : RegField := ⟨secStat, 19, 16⟩
def secStatStage : RegField := ⟨secStat, 15, 14⟩
def secStatFailB : RegField := ⟨secStat, 11, 8⟩
def secStatFailA : RegField := ⟨secStat, 7, 4⟩
def secStatReverted : RegField := ⟨secStat, 3, 3⟩
def secStatTrial : RegField := ⟨secStat, 2, 2⟩
def secStatSlot : RegField := ⟨secStat, 0, 0⟩
/-- `SEC_SVN` (R558). -/
def secSvn : Nat := 0x1F0000080008
def secSvnSvnMin : RegField := ⟨secSvn, 38, 32⟩
def secSvnSvn : RegField := ⟨secSvn, 31, 0⟩
/-- `SEC_FW` (R558). -/
def secFw : Nat := 0x1F0000080010
def secFwVerB : RegField := ⟨secFw, 63, 32⟩
def secFwVerA : RegField := ⟨secFw, 31, 0⟩

end Reg

end Sys2Proof.Machine
end

