-- ==== Sys2Proof/Machine/XltTypes.lean ====
section
/-! DEFINITION. State of translation faults, invalidation and migration (12_translation.md). -/

namespace Sys2Proof.Machine

/-- Kinds of a fault record (R390). -/
inductive FaultKind where
  | notPresent | permission | badEntry | noRoot | physHole | prefetch
deriving DecidableEq, Repr

/-- A requester of a Tower that waits on a fault: Tower, and 0 scalar core, 1 vector, 2 Dome, 3 tile, 4 + k stream slot k. -/
structure Member where
  tower : Nat
  who : Nat
deriving DecidableEq, Repr

/-- A fault that has not been resolved (R392, R395). -/
structure XFault where
  /-- ID of the written record; none before the record is written -/
  id : Option Nat
  /-- it holds an entry of the unresolved-fault table; a physical-hole or prefetch record never does -/
  inTable : Bool
  /-- it waited for space, so its record carries HELD -/
  held : Bool
  kind : FaultKind
  asid : Nat
  handle : Nat
  region : Nat
  addr : Nat
  level : Nat
  adv : Nat
  access : Nat
  towers : Nat
  engines : Nat
  part : Bool
  count : Nat
  members : List Member
deriving DecidableEq, Repr

/-- A range invalidation as it stood when GO was written (R397). -/
structure Inval where
  all : Bool
  asid : Nat
  base : Nat
  size : Nat
deriving DecidableEq, Repr

/-- A MIGRATE in progress (R401–R403): its number, its first page not yet moved and the destination frames of the pages
left. -/
structure Migration where
  serial : Nat
  asid : Nat
  dva : Nat
  big : Bool
  frames : List Nat
deriving DecidableEq, Repr

/-- State of translation beside the registers. -/
structure XltSt where
  /-- unresolved and held faults, oldest first -/
  faults : List XFault := []
  migs : List Migration := []
  /-- MIGRATE commands accepted so far -/
  migSerial : Nat := 0
  /-- the invalidation in progress -/
  inv : Option Inval := none
deriving DecidableEq, Repr

end Sys2Proof.Machine
end

