-- ==== Sys2Proof/Machine/State.lean ====
section
/-! DEFINITION. The state of the module, the ways a command can stop, and the state after reset. -/

namespace Sys2Proof.Machine

/-- What is wrong with a 64-byte granule of memory (R360, R506). -/
inductive Bad where
  | uncorrectable | poisoned
deriving DecidableEq, Repr

/-- Memory devices and the page map (R362–R366). -/
structure MemSt where
  /-- the list L -/
  order : List Nat := []
  /-- the device of L whose pages have, or are being given, spare frames (R363, R364) -/
  moved : Option Nat := none
  /-- pages of it already copied, while it is migrated -/
  copied : Option Nat := none
  /-- of the migration: the trigger of the retirement, and whether some granule was written poisoned (R364, R521) -/
  why : Nat := 0
  poor : Bool := false
  /-- devices retired without migration: their pages are lost (R366) -/
  lost : List Nat := []
  /-- devices that have stopped answering, with the boundaries passed when they did (R560) -/
  silent : Tab Nat := []
deriving DecidableEq, Repr

/-- The module. -/
structure State where
  /-- control registers by LPA; an unlisted register holds its Reset value -/
  regs : Tab Dword := []
  /-- device memory and Tower stores by LPA (R30); an unlisted byte reads 0 (log entry 4) -/
  mem : List Host.Cell := []
  /-- host-die memory by host address (R533); an unlisted byte reads 0 (log entry 4) -/
  hostMem : List Host.Cell := []
  /-- writes to the window that timed out and may still land, by host address (R352) -/
  lateWrites : List (Nat × List Byte) := []
  /-- granules of device memory, by LPA / 64, that do not read (R360) -/
  bad : Tab Bad := []
  /-- 8-byte words of Tower stores, by LPA / 8, that hold an uncorrectable error (R506) -/
  badWords : Tab Bad := []
  towers : Tab Tower := []
  /-- the Keep cores of die 0 and die 1; `estat.KEEP` reads 1 (R262) -/
  keep0 : Core := { estat := 2 }
  keep1 : Core := { estat := 2 }
  /-- die-shared bits by die × 65,536 + i (R286) -/
  shared : Tab Bool := []
  dev : MemSt := {}
  xlt : XltSt := {}
  chans : Tab Channel := []
  /-- accepted steps that have not posted, by channel index × 65,536 + submission index -/
  steps : Tab StepSt := []
  /-- interrupt messages sent to the host die, by vector, and whether an enabled source was pending (R536) -/
  irqMsgs : List Nat := []
  irqLevel : Bool := false
  /-- packets of this module's requesters and homes that wait for the router (R421) -/
  outbox : List Packet := []
  /-- packets that the router has delivered here -/
  inbox : List Packet := []
  ports : Tab Port := []
  colls : Tab CollSlot := []
  collOut : List CollSent := []
  roll : RollSt := { cfg := regReset Reg.rollCfg, keepCfg := regReset Reg.keepCfg }
  pwr : PwrSt := { fill := regReset Reg.pwrFill, droopCfg := regReset Reg.pwrDroopCfg }
  rel : RelSt := {}
  flash : Flash := {}
  flashq : FlashQueue := {}
  boot : BootSt := {}
  smb : SmbSt := {}
  adm : AdmSt := {}
  out : Outputs := {}
  /-- no module fault, trip or power loss has stopped the module (R517, R490, R542) -/
  alive : Bool := true
  /-- the model's own counter of free values drawn (log entry 6) -/
  fresh : Nat := 0
  /-- commands waiting, first in first out -/
  pending : List Instr := []
deriving DecidableEq, Repr

/-- Why a run stops. -/
inductive Fault where
  /-- a Keep core meets an exception with `evec.EN` = 0 or while a handler runs: R298 names only the end of a step, and
  a Keep core runs none. Raised by the scalar meanings on a Keep core. Safe. -/
  | keepException
deriving DecidableEq, Repr

/-- Why a command is refused. -/
inductive Refusal where
  /-- the command has no meaning yet. Safe. -/
  | notModelled (mnemonic : String)
deriving DecidableEq, Repr

/-- The instant PWR_GOOD has risen: every register at its Reset value, memory listing nothing (log entry 2). -/
def State.reset : State := {}

end Sys2Proof.Machine
end

