-- ==== Sys2Proof/Machine/Ops.lean ====
section
/-! DEFINITION. The named operations over the state: Towers and cores, control registers, physical memory, the ends of
a step. -/

namespace Sys2Proof.Machine

/-! Towers and cores. -/

def State.tw (s : State) (t : Nat) : Tower := Tab.get {} s.towers t
def State.setTw (s : State) (t : Nat) (w : Tower) : State := { s with towers := Tab.set s.towers t w }
def State.modTw (s : State) (t : Nat) (f : Tower → Tower) : State := s.setTw t (f (s.tw t))

/-- The core that executes. -/
def State.core (s : State) : CoreId → Core
  | .tower t => (s.tw t.toNat).core
  | .keep false => s.keep0
  | .keep true => s.keep1
def State.setCore (s : State) (c : CoreId) (k : Core) : State := match c with
  | .tower t => s.modTw t.toNat (fun w => { w with core := k })
  | .keep false => { s with keep0 := k }
  | .keep true => { s with keep1 := k }
def State.modCore (s : State) (c : CoreId) (f : Core → Core) : State := s.setCore c (f (s.core c))

/-- Die of a Tower (R21) and of a core. -/
def dieOf (t : Nat) : Nat := t / 64
def coreDie : CoreId → Nat
  | .tower t => dieOf t.toNat
  | .keep d => b2n d
def isKeep : CoreId → Bool
  | .tower _ => false
  | .keep _ => true
/-- Number of the power region of a Tower: die × 16 + region (R21). -/
def regionOf (t : Nat) : Nat := dieOf t * 16 + nfld t 5 4 * 4 + nfld t 2 1

/-! Control registers. -/

/-- The value held by the register at an LPA. -/
def State.rd (s : State) (a : Nat) : Dword := (Tab.find s.regs a).getD (regReset a)
def State.wr (s : State) (a : Nat) (v : Dword) : State := { s with regs := Tab.set s.regs a v }
/-- A field. -/
def State.f (s : State) (r : RegField) : Nat := fld (s.rd r.addr) r.hi r.lo
def State.fb (s : State) (r : RegField) : Bool := decide (s.f r ≠ 0)
/-- Sets a field. -/
def State.setF (s : State) (r : RegField) (v : Nat) : State := s.wr r.addr (setFld (s.rd r.addr) r.hi r.lo v)
/-- Adds to a counter that wraps. -/
def State.incF (s : State) (r : RegField) (n : Nat) : State := s.setF r (s.f r + n)
/-- Adds to a counter that stops at its largest value. -/
def State.satF (s : State) (r : RegField) (n : Nat) : State := s.setF r (satAdd (r.hi + 1 - r.lo) (s.f r) n)

/-- ORs exception flags into bits [4:0] of a register (R85, R86). -/
def State.orFlags (s : State) (a : Nat) (f : Fl) : State :=
  s.wr a (s.rd a ||| BitVec.ofNat 64 f.bits)

/-- A free value no rule states (log entry 6). -/
def State.free (s : State) : Dword × State := (Config.freeWord s.fresh, { s with fresh := s.fresh + 1 })

/-- Bytes that no rule states. -/
def State.freeBytes (s : State) (n : Nat) : List Byte × State :=
  let k := ceilDiv n 8
  (((range s.fresh k).flatMap (fun i => leBytes 8 (Config.freeWord i).toNat)).take n, { s with fresh := s.fresh + k })

/-! Event records, error counts and judgements (R508, R521). -/

def State.now (s : State) : Nat := s.f Reg.rollCountCount

/-- Parts as the event log codes them (R521). -/
def partTower (t : Nat) : Nat := 1 * 2 ^ 24 + t
def partDevice (d : Nat) : Nat := 2 * 2 ^ 24 + d
def partPort (p : Nat) : Nat := 3 * 2 ^ 24 + p
def partLane (p l : Nat) : Nat := 4 * 2 ^ 24 + p * 8 + l
def partKeep (d : Nat) : Nat := 5 * 2 ^ 24 + d
def partRegion (r : Nat) : Nat := 6 * 2 ^ 24 + r

/-- Queues an event record of the current roll (R521); types 0x0010 to 0x0022 and 0x0050 count in ERRORS of its roll
(R63). -/
def State.event (s : State) (type part : Nat) (detail : List Byte) : State :=
  let s := { s with flashq := { s.flashq with events := s.flashq.events ++ [(s.now, type, part, detail)] } }
  if (0x10 ≤ type ∧ type ≤ 0x22) ∨ type = 0x50 then
    { s with roll := { s.roll with errors := min 0xFFFF (s.roll.errors + 1) } }
  else s

/-- Queues a flash record (R523). -/
def State.flashPut (s : State) (r : FlashRec) : State := { s with flashq := { s.flashq with recs := s.flashq.recs ++ [r] } }

/-! What is counted for a part over a window (R508): the kind of count and log2 of its window. -/

inductive CountKind where
  | machineCheck | towerCe | l1Perr | devCe | drift | portRetrain
deriving DecidableEq, Repr

def CountKind.code : CountKind → Nat
  | .machineCheck => 0 | .towerCe => 1 | .l1Perr => 2 | .devCe => 3  | .drift => 4 | .portRetrain => 5
def CountKind.logW : CountKind → Nat
  | .machineCheck => 20 | .towerCe => 16 | .l1Perr => 16 | .devCe => 22 | .drift => 16
  | .portRetrain => 16
def countKey (k : CountKind) (i : Nat) : Nat := k.code * 65536 + i

/-- The bucket of a window of 2^`logW` rolls that a roll falls into: each holds a sixteenth of the window (R508). A lengthened
roll counts as one (R49). -/
def bucketOf (logW roll : Nat) : Nat := roll / 2 ^ (logW - 4)

/-- Adds events to a count in the current bucket; buckets that have left the window go. -/
def State.bump (s : State) (k : CountKind) (i n : Nat) : State :=
  let b := bucketOf k.logW s.roll.passed
  let old := (Tab.get [] s.rel.counts (countKey k i)).filter (fun e => decide (b < e.1 + 16))
  let t := Tab.set old b (Tab.get 0 old b + n)
  { s with rel := { s.rel with counts := Tab.set s.rel.counts (countKey k i) t } }

/-- Value of a count in a roll: the sum of its bucket and the 15 before it. -/
def State.countAt (s : State) (roll : Nat) (k : CountKind) (i : Nat) : Nat :=
  let b := bucketOf k.logW roll
  (((Tab.get [] s.rel.counts (countKey k i)).filter (fun e => decide (e.1 ≤ b) && decide (b < e.1 + 16))).map (·.2)).foldl (· + ·) 0

/-- Value of a count in the current roll. -/
def State.count (s : State) (k : CountKind) (i : Nat) : Nat := s.countAt s.roll.passed k i

/-- A part is judged permanent, with the trigger and its count (R508, R521); a part already judged stays as it is. -/
def State.judge (s : State) (part trigger count : Nat) : State :=
  if s.rel.judged.any (fun e => decide (e.1 = part)) then s
  else { s with rel := { s.rel with judged := s.rel.judged ++ [(part, trigger, count)] } }

/-- The step a Tower holds. -/
def State.stepOf (s : State) (t : Nat) : Option (Nat × StepSt) := match (s.tw t).step with
  | some k => (Tab.find s.steps k).map (fun st => (k, st))
  | none => none

/-- An uncorrectable error of a structure (R505's row order from 1) in a part at an address, with the step that met it
(R521; log entry 30). -/
def State.uncorrected (s : State) (struct part addr : Nat) (t : Nat) : State :=
  let (h, i) := match (s.tw t).step with
    | some k => ((Tab.get ({} : Channel) s.chans (k / 65536)).gen * 65536 + k / 65536, k % 65536)
    | none => (0, 0)
  s.event 0x10 part (leBytes 4 struct ++ leBytes 8 addr ++ leBytes 4 h ++ leBytes 2 i)

/-! Interrupts to the host die (R536). -/

/-- Some enabled bit of `KEEP_IRQ_STAT` is set. -/
def State.keepIrq (s : State) : Bool :=
  decide (fld (s.rd Reg.keepIrqStat) 2 0 &&& fld (s.rd Reg.keepIrqEn) 2 0 ≠ 0)

/-- Some fault is held (R395). -/
def State.qfull (s : State) : Bool := s.xlt.faults.any (fun f => f.held && f.id.isNone)

/-- `HST_IRQ_PEND`, with its level bits as their conditions stand. -/
def State.irqPend (s : State) : Dword :=
  let v := setBit (s.rd Reg.hstIrqPend) 0 s.keepIrq
  setBit v 2 (s.qfull && s.fb Reg.xltCtrlQfullIe)

/-- An enabled source is pending. -/
def State.irqOn (s : State) : Bool := decide (s.irqPend &&& s.rd Reg.hstIrqEn ≠ 0)

/-- Sends one interrupt message. -/
def State.irqSend (s : State) : State := { s with irqMsgs := s.irqMsgs ++ [s.f Reg.hstCtrlVector] }

/-- Sends a message where the pending and enabled set has become nonzero. -/
def State.irqSync (s : State) : State :=
  let on := s.irqOn
  let s := if on && !s.irqLevel then s.irqSend else s
  { s with irqLevel := on }

/-- Latches a host interrupt source. -/
def State.irqLatch (s : State) (b : Nat) : State :=
  (s.wr Reg.hstIrqPend (setBit (s.rd Reg.hstIrqPend) b true)).irqSync

/-- Sets a bit of `KEEP_IRQ_STAT`. -/
def State.keepIrqSet (s : State) (b : Nat) : State :=
  (s.wr Reg.keepIrqStat (setBit (s.rd Reg.keepIrqStat) b true)).irqSync

/-! Places of physical memory (R30, R31, R35–R37). An FPA is a number below 2^57. -/

inductive Place where
  | device
  | store (t : Nat)
  | hostWin
  | ctrl
  | hole
  | remote (m : Nat)
deriving DecidableEq, Repr

/-- This module's number. -/
def State.self (s : State) : Nat := s.f Reg.gwlIdModule

/-- What an LPA of this module lies in. A retired Tower's store is a hole (R33). -/
def State.lpaPlace (s : State) (a : Nat) : Place :=
  if a < 0x100000000000 then (if a < s.f Reg.memSizeSize then .device else .hole)
  else if a < 0x180000000000 then
    let o := a - 0x100000000000
    let t := o / 0x800000
    if t < 128 ∧ o % 0x800000 < 0x600000 ∧ (s.tw t).run ≠ .retired then .store t else .hole
  else if a < 0x1F0000000000 then .hostWin
  else .ctrl

/-- What an FPA lies in (R36, R37). -/
def State.place (s : State) (a : Nat) : Place :=
  if a / 2 ^ 45 = s.self then s.lpaPlace (a % 2 ^ 45) else .remote (a / 2 ^ 45)

/-- LPA of byte 0 of a Tower's store. -/
def storeBase (t : Nat) : Nat := 0x100000000000 + t * 0x800000

/-- Host address of a window LPA (R533). -/
def State.hostAddr (s : State) (a : Nat) : Nat := (a - 0x180000000000 + s.f Reg.hstWinOffset * 0x10000) % 2 ^ 64

/-- The requests of one access: pieces within aligned 64-byte granules (R343, R353). -/
def pieces : Nat → Nat → Nat → List (Nat × Nat)
  | 0, _, _ => []
  | fuel + 1, a, n =>
    if n = 0 then [] else
    let k := min n (64 - a % 64)
    (a, k) :: pieces fuel (a + k) (n - k)

/-- The granule pieces of a byte range. -/
def granules (a n : Nat) : List (Nat × Nat) := pieces (n / 64 + 2) a n

/-- The device and the frame that hold a page, after redirection to the spare frames (R362, R363). -/
def State.frameOf (s : State) (lpa : Nat) : Option (Nat × Nat) :=
  let L := s.dev.order
  let n := L.length
  if n = 0 then none else
  let P := lpa / 65536
  let b := P / n
  let r := P % n
  let h := (nfld b 4 0) ^^^ (nfld b 9 5) ^^^ (nfld b 14 10) ^^^ (nfld b 19 15)
  let i := (r + h) % n
  match L[i]? with
  | none => none
  | some d =>
    let movedAway := match s.dev.copied with
      | some k => decide (b < k)
      | none => true
    if s.dev.moved = some d ∧ movedAway = true then
      (L[(i + 1 + b % (n - 1)) % n]?).map (fun e => (e, s.f Reg.memSizeSize / 65536 / n + b / (n - 1)))
    else some (d, b)

/-- The device that holds a page. -/
def State.devOf (s : State) (lpa : Nat) : Option Nat := (s.frameOf lpa).map (·.1)

/-- A page whose data is lost (R366). -/
def State.lost (s : State) (lpa : Nat) : Bool := match s.devOf lpa with
  | some d => s.dev.lost.contains d
  | none => false

/-- A page on a device that does not answer (R560). -/
def State.silent (s : State) (lpa : Nat) : Bool := match s.devOf lpa with
  | some d => Tab.has s.dev.silent d
  | none => false

/-- The bytes lie in a granule of device memory, or in an 8-byte word of a store, that does not read (R360, R506). -/
def State.badIn (s : State) (lpa n : Nat) : Bool :=
  if lpa < 0x100000000000 then Tab.has s.bad (lpa / 64)
  else (range (lpa / 8) ((lpa + n + 7) / 8 - lpa / 8)).any (Tab.has s.badWords)

/-- A request for a piece of a granule of device memory or of a store cannot be read (R360, R366, R506, R560). -/
def State.unreadable (s : State) (lpa n : Nat) : Bool :=
  s.badIn lpa n || (decide (lpa < 0x100000000000) && (s.lost lpa || s.silent lpa))

/-- An uncorrectable error is met at an address of device memory or of a store by Tower `t` (128 and above: none): a
granule of device memory counts once, when first met there (R508). -/
def State.ueMet (s : State) (t lpa : Nat) : State :=
  if lpa < 0x100000000000 then
    let s := s.uncorrected 14 (((s.devOf lpa).map partDevice).getD 0) (lpa / 64 * 64) t
    if Tab.has s.rel.ueSeen (lpa / 64) then s
    else { s with rel := { s.rel with ueSeen := Tab.set s.rel.ueSeen (lpa / 64) s.roll.passed } }
  else s.uncorrected 1 (partTower ((lpa - 0x100000000000) / 0x800000)) lpa t

/-- Distinct granules of a device at which an uncorrectable error was first met within 2^20 rolls up to a roll (R508). -/
def State.ueCount (s : State) (roll d : Nat) : Nat :=
  (s.rel.ueSeen.filter (fun e => decide (s.devOf (e.1 * 64) = some d)
    && decide (bucketOf 20 e.2 ≤ bucketOf 20 roll) && decide (bucketOf 20 roll < bucketOf 20 e.2 + 16))).length

/-- The canonical form of a memory: addresses strictly rising, no byte equal to what an unlisted address reads as. -/
def Memory.wf (m : List Host.Cell) : Bool := Tab.wf 0 m

/-- Bytes of this module's memory. -/
def State.load (s : State) (lpa n : Nat) : List Byte := Tab.getAll 0 s.mem lpa n
def State.store (s : State) (lpa : Nat) (bs : List Byte) : State := { s with mem := Tab.putAll 0 s.mem lpa bs }
/-- Bytes of host-die memory. -/
def State.loadHost (s : State) (a n : Nat) : List Byte := Tab.getAll 0 s.hostMem a n
def State.storeHost (s : State) (a : Nat) (bs : List Byte) : State := { s with hostMem := Tab.putAll 0 s.hostMem a bs }

/-- Bytes at an LPA of device memory, a store or the window, without checks. -/
def State.peek (s : State) (lpa n : Nat) : List Byte :=
  if 0x180000000000 ≤ lpa ∧ lpa < 0x1F0000000000 then s.loadHost (s.hostAddr lpa) n else s.load lpa n

/-- Reads a range of device memory or of a store: bytes, and whether some granule gave an error response (R360). -/
def State.readMem (s : State) (t lpa n : Nat) : List Byte × Bool × State :=
  let bad := (granules lpa n).filter (fun p => s.unreadable p.1 p.2)
  let met := bad.filter (fun p => s.badIn p.1 p.2)
  (s.load lpa n, decide (bad ≠ []),
    if bad = [] then s
    else (overList met (fun p s => s.ueMet t p.1) s).satF Reg.memUeCntCount
      (bad.filter (fun p => decide (p.1 < 0x100000000000))).length)

/-- Writes one granule piece of device memory: a whole granule clears poison; a partial one needs a readable granule; a
lost or silent page discards the write. A word of a store is mended by a write of all its bytes (R360, R366, R506, R560). -/
def State.writePiece (s : State) (t lpa : Nat) (bs : List Byte) : Bool × State :=
  if lpa < 0x100000000000 then
    let whole := decide (bs.length = 64)
    if s.lost lpa || s.silent lpa then (true, s.satF Reg.memUeCntCount 1)
    else if Tab.has s.bad (lpa / 64) && !whole then (true, (s.ueMet t lpa).satF Reg.memUeCntCount 1)
    else (false, { s.store lpa bs with bad := if whole then Tab.del s.bad (lpa / 64) else s.bad })
  else
    (false, { s.store lpa bs with
      badWords := overList (range ((lpa + 7) / 8) ((lpa + bs.length) / 8 - (lpa + 7) / 8)) (fun k t => Tab.del t k) s.badWords })

/-- Writes a range piece by piece; the flag says that some piece got an error response. -/
def State.writeMem (s : State) (t lpa : Nat) (bs : List Byte) : Bool × State :=
  (granules lpa bs.length).foldl (fun (acc : Bool × State) p =>
    let (e, s') := acc.2.writePiece t p.1 ((bs.drop (p.1 - lpa)).take p.2)
    (acc.1 || e, s')) (false, s)

/-- A range lies wholly in device memory, or wholly in the host memory window (R333, R389, R446, R454). -/
def State.inDevice (s : State) (a n : Nat) : Bool := decide (a + n ≤ s.f Reg.memSizeSize)
def inWindow (a n : Nat) : Bool := decide (0x180000000000 ≤ a) && decide (a + n ≤ 0x1F0000000000)
def State.inDevOrWin (s : State) (a n : Nat) : Bool := s.inDevice a n || inWindow a n

/-! The Keep's own accesses (R352: an error follows the rule of the ring). -/

/-- An LPA at which a Keep's access transfers no data (R32, R34). -/
def State.keepHole (s : State) (a : Nat) : Bool := match s.lpaPlace a with
  | .device => false
  | .store _ => false
  | _ => true

/-- Abandoned writes to the window may land now, each or not (R352). -/
def State.landLate (s : State) : State :=
  s.lateWrites.foldl (fun (s : State) w =>
    let (v, s) := s.free
    if v.getLsbD 0 then s.storeHost w.1 w.2 else { s with lateWrites := s.lateWrites ++ [w] }) { s with lateWrites := [] }

/-- A Keep's read of a range: bytes, or none for an error response. A piece in a hole reads as zeros (R32). -/
def State.keepRead (s : State) (a n : Nat) : Option (List Byte) × State :=
  if inWindow a n then
    let s := s.landLate
    (some (s.peek a n), s)
  else
    (granules a n).foldl (fun (acc : Option (List Byte) × State) p =>
      if acc.2.keepHole p.1 then (acc.1.map (· ++ List.replicate p.2 0), acc.2)
      else
        let (bs, e, s') := acc.2.readMem 128 p.1 p.2
        (if e then none else acc.1.map (· ++ bs), s')) (some [], s)

/-- A Keep's write of a range; `resp` is the host die's answer if it lies in the window. An abandoned write may land now, later
or not (R352); a piece in a hole is dropped (R32). -/
def State.keepWrite (s : State) (a : Nat) (bs : List Byte) (resp : Resp) : Bool × State :=
  if inWindow a bs.length then
    match resp with
    | .ok => (false, s.storeHost (s.hostAddr a) bs)
    | .hostErr => (true, s.setF Reg.hstStatHosterr 1)
    | .timeout =>
      let s := s.setF Reg.hstStatTimeout 1
      (true, { s with lateWrites := s.lateWrites ++ [(s.hostAddr a, bs)] }.landLate)
  else
    (granules a bs.length).foldl (fun (acc : Bool × State) p =>
      if acc.2.keepHole p.1 then acc
      else
        let (e, s') := acc.2.writePiece 128 p.1 ((bs.drop (p.1 - a)).take p.2)
        (acc.1 || e, s')) (false, s)

/-! The ends of a step. -/

/-- Towers of a step stop issuing (R467, R564); one that executed `done` stays as it is. -/
def State.stopTowers (s : State) (ts : List Nat) : State :=
  overList ts (fun t s => s.modTw t (fun w =>
    if w.run = .running ∨ w.run = .restoring ∨ w.run = .restored then { w with run := .stopped } else w)) s

/-- The step of Tower `t` ends as a program error (R8, R564). -/
def State.programError (s : State) (t : Nat) : State := match s.stepOf t with
  | some (k, st) => { s.stopTowers st.towers with steps := Tab.set s.steps k { st with progErr := true } }
  | none => s.stopTowers [t]

/-- A part fault strikes a step (R467), and breaks the generation in progress of each of its channel's slots, on whatever member it
is in progress (R439). -/
def State.strikeStep (s : State) (k : Nat) : State := match Tab.find s.steps k with
  | some st =>
    { s.stopTowers st.towers with
      steps := Tab.set s.steps k { st with struck := true },
      colls := s.colls.map (fun e =>
        if e.2.bound ∧ e.2.chan % 65536 = k / 65536 then (e.1, { e.2 with fault := true }) else e) }
  | none => s

/-- A part fault strikes the step of Tower `t`. -/
def State.strike (s : State) (t : Nat) : State := match s.stepOf t with
  | some (k, _) => s.strikeStep k
  | none => s.stopTowers [t]

/-- A module fault or a lost leader: nothing on the module executes any more, and every channel has gone (R28, R466,
R517). -/
def State.haltModule (s : State) : State :=
  let s := s.stopTowers (range 0 128)
  let s := (s.setF Reg.keepStatReady 0).setF Reg.hstStatReady 0
  { s with alive := false, chans := [], steps := [] }

/-- Strikes the step of a key, or not, as a free value says. -/
def State.mayStrike (s : State) (k : Nat) : State :=
  let (v, s) := s.free
  if v.getLsbD 0 then s.strikeStep k else s

/-- A part fault of the follower (R28, R516): recorded with its cause in the order of R516, and the leader takes over. Steps with a
Tower of die 1 in a save or a restore are struck; so are those in dispatch (R467). `fresh` tells the steps that were dispatched in
the roll of the fault, and whether their dispatch was still going on then no rule says: a free value (log entry 115). -/
def State.followerFails (s : State) (cause : Nat) (fresh : StepSt → Bool) : State :=
  if s.fb Reg.keepStatLeaderOnly then s
  else
    let s := (s.event 0x50 (partKeep 1) (leBytes 1 cause)).setF Reg.keepStatLeaderOnly 1
    let die1 := fun (p : Nat → Bool) => (s.steps.filter (fun e => e.2.towers.any (fun t => decide (64 ≤ t) && p t))).map (·.1)
    let moving := die1 (fun t => decide ((s.tw t).run ∈ [.saving, .restoring, .restored]))
    let begun := ((s.steps.filter (fun e => decide (e.2.phase = .resident) && fresh e.2 && e.2.towers.any (fun t => decide (64 ≤ t)))).map
      (·.1)).filter (fun k => !moving.contains k)
    overList begun (fun k s => s.mayStrike k) (overList moving (fun k s => s.strikeStep k) s)

/-- A Keep fails between boundaries: the leader's loss is a module fault, the follower's a part fault; scalar cores are at entry
40 rc after the boundary of a dispatch (R28, R55, R516, R517). -/
def State.keepFails (s : State) (d : Bool) (cause : Nat) : State :=
  if d then s.followerFails cause (fun st => decide (st.stay = 0) && decide (s.f Reg.rollPhasePhase < 40)) else s.haltModule

/-- A Tower machine check, for an error that a structure's protection does not correct (R313, R505, R506): recorded with the row of
R505 and the address; the core stops, MCHK is set, the step is struck. In a Keep it is that Keep's part fault (R516). -/
def State.machineCheck (s : State) (c : CoreId) (struct addr : Nat) : State := match c with
  | .tower t =>
    let s := (s.uncorrected struct (partTower t.toNat) addr t.toNat).bump .machineCheck t.toNat 1
    let s := (s.setF (Reg.twrStatMchk t.toNat) 1).strike t.toNat
    s.modTw t.toNat (fun w => { w with run := if w.run = .retired then .retired else .stopped })
  | .keep d => s.keepFails d 1

/-- Latches an interrupt source of a Tower (R325). -/
def State.latch (s : State) (t src : Nat) : State :=
  s.wr (Reg.twrIpend t) (setBit (s.rd (Reg.twrIpend t)) src true)

/-- The first three conditions of R326: a source counts as eligible even while a handler runs (R330). -/
def State.srcEligible (s : State) (t src : Nat) : Bool :=
  let prio := if src < 16 then fld (s.rd (Reg.twrIprio0 t)) (4 * src + 2) (4 * src)
    else fld (s.rd (Reg.twrIprio1 t)) (4 * (src - 16) + 2) (4 * (src - 16))
  bit (s.rd (Reg.twrIen t)) src && decide (s.f (Reg.twrIctrlThresh t) ≤ prio) && bit (s.tw t).core.evec 0

/-- An engine error of source `src`: its handler runs if the source is eligible, otherwise the step ends (R330). -/
def State.engineError (s : State) (t src : Nat) : State :=
  if s.srcEligible t src then s else s.programError t

end Sys2Proof.Machine
end

