-- ==== Sys2Proof/Machine/Xlate.lean ====
section
/-! DEFINITION. Page-table walks, TLBs and translation faults (12_translation.md). -/

namespace Sys2Proof.Machine

/-- Address space of a Tower's step, and its channel handle (R373, R453). -/
def State.chanOf (s : State) (t : Nat) : Option (Nat × Channel) := match s.stepOf t with
  | some (k, _) => some (k / 65536, Tab.get {} s.chans (k / 65536))
  | none => none
/-- A Keep core (128 + die) has no channel; a descriptor with PHYS = 0 there names no space (log entry 41). -/
def State.asidOf (s : State) (t : Nat) : Nat :=
  if t < 128 then ((s.chanOf t).map (fun c => c.2.asid)).getD 0 else Config.keepAsid % 256
def State.handleOf (s : State) (t : Nat) : Nat := ((s.chanOf t).map (fun c => c.2.gen * 65536 + c.1)).getD 0

/-- Kind of an access as the ACCESS bits of R390. -/
def accBit : Access → Nat
  | .read => 1 | .write => 2 | .fetch => 4

/-- Page size of a leaf, as a power of two (R376). -/
def pageLog (level : Nat) : Nat := match level with
  | 1 => 39 | 2 => 30 | 3 => 21 | _ => 16

/-- Bytes of a table of a level (R376). -/
def tableSize (level : Nat) : Nat := if level = 4 then 256 else 4096
/-- Index of a DVA in a table of a level. -/
def tableIdx (level dva : Nat) : Nat := dva / 2 ^ pageLog level % (if level = 4 then 32 else 512)

/-- The leaf permits the access (R379). -/
def leafPermits (pte : Dword) (acc : Access) : Bool := match acc with
  | .read => bit pte 3
  | .write => bit pte 4
  | .fetch => bit pte 5

/-- A present entry is malformed, apart from its M bit (R378). -/
def State.badEntry (s : State) (level : Nat) (pte : Dword) : Bool :=
  if bit pte 1 then
    decide (level = 1) || decide (fld pte 63 57 ≠ 0) || decide (fld pte 15 9 ≠ 0) || bit pte 2
      || decide (fld pte 8 7 = 3) || decide (fld pte 5 3 = 0)
      || (decide (level = 3) && decide (fld pte 20 16 ≠ 0)) || (decide (level = 2) && decide (fld pte 29 16 ≠ 0))
  else
    let next := fld pte 44 8 * 256
    decide (level = 4) || decide (fld pte 63 45 ≠ 0) || decide (fld pte 7 2 ≠ 0)
      || decide (next % tableSize (level + 1) ≠ 0) || !s.inDevOrWin next (tableSize (level + 1))

/-- A MIGRATE in progress is moving the page (R404). -/
def State.migrating (s : State) (asid dva level : Nat) : Bool :=
  s.xlt.migs.any (fun m => decide (m.asid = asid) && decide (m.frames ≠ [])
    && decide (level = if m.big then 3 else 4)
    && decide (m.dva / 2 ^ pageLog level = dva / 2 ^ pageLog level))

/-- How a walk or a translation ends. -/
inductive TrRes where
  | ok (fpa : Nat)
  | fault (kind : FaultKind) (level addr adv : Nat)
  /-- it waits for a page that a MIGRATE moves (R404) -/
  | migWait
  /-- an error response on a table entry; `host` for a host error completion (R566) -/
  | err (host : Bool)
deriving DecidableEq, Repr

/-- A walk's outcome before the permission check. -/
inductive WalkRes where
  | leaf (level : Nat) (pte : Dword)
  | stop (r : TrRes)
  /-- an error response on the entry at an address (R566) -/
  | bad (addr : Nat)
deriving DecidableEq, Repr

/-- FPA of a DVA through a leaf (R379). -/
def leafFpa (level : Nat) (pte : Dword) (dva : Nat) : Nat :=
  fld pte 56 16 * 65536 / 2 ^ pageLog level * 2 ^ pageLog level + dva % 2 ^ pageLog level

/-- A walker's read of an entry gets an error response: of device memory that does not read, or the host die's (R566). -/
def State.walkErr (s : State) (resp : Resp) (a : Nat) : Bool :=
  if a < 0x100000000000 then s.unreadable a 8 else decide (resp ≠ .ok)

/-- The error response is recorded as for any read: counted in `MEM_UE_CNT`, or shown in `HST_STAT`; says whether it was a host
error completion (R352, R360, R560, R566). -/
def State.walkMet (s : State) (resp : Resp) (t a : Nat) : Bool × State :=
  if a < 0x100000000000 then (false, (s.readMem t a 8).2.2)
  else match resp with
    | .hostErr => (true, s.setF Reg.hstStatHosterr 1)
    | .timeout => (false, s.setF Reg.hstStatTimeout 1)
    | .ok => (false, s)

/-- Walks from a table of a level, one level for each unit of fuel (R379, R380); the walk cache gains the table entries
passed. `resp` is the host die's answer to reads of the window. -/
def State.walkFrom (s : State) (resp : Resp) (asid root dva : Nat) : Nat → Nat → Nat → List WalkEntry → WalkRes × List WalkEntry
  | 0, _, _, c => (.stop (.fault .badEntry 4 0 0), c)
  | fuel + 1, level, table, c =>
    let a := table + 8 * tableIdx level dva
    if s.walkErr resp a then (.bad a, c)
    else
      let pte : Dword := BitVec.ofNat 64 (leNat (s.peek a 8))
      if !bit pte 0 then (.stop (.fault .notPresent level dva 0), c)
      else if s.badEntry level pte then (.stop (.fault .badEntry level a 0), c)
      else if bit pte 1 then
        if bit pte 6 then
          (if s.migrating asid dva level then .stop .migWait else .stop (.fault .badEntry level a 0), c)
        else (.leaf level pte, c)
      else
        let next := fld pte 44 8 * 256
        s.walkFrom resp asid root dva fuel (level + 1) next (⟨asid, root, level + 1, dva / 2 ^ pageLog level, next⟩ :: c)

/-- Capacity of a requester's TLB (R382): 0 core, 1 vector, 2 tile, 3 Dome, 4 Turret, 5 Spire, 6 + k stream slot k. -/
def tlbCap (r : Nat) : Nat := match r with
  | 0 => 16 | 1 => 32 | 2 => 8 | 3 => 8 | 4 => 8 | _ => 4

/-- A TLB entry translates the address. -/
def TlbEntry.hits (e : TlbEntry) (asid dva : Nat) : Bool :=
  decide (e.asid = asid) && decide (e.vpn = dva / 2 ^ pageLog e.level)

/-- Set of the L2 TLB that an entry falls into, which no rule names (R382; log entry 11). -/
def TlbEntry.l2Set (e : TlbEntry) : Nat := Config.l2Set e.asid e.level e.vpn % 256

/-- Drops the last entry of a set from a list. -/
def dropLastOf (n : Nat) (l : List TlbEntry) : List TlbEntry :=
  match l.reverse.findIdx? (fun e => decide (e.l2Set = n)) with
  | some i => (l.reverse.eraseIdx i).reverse
  | none => l

/-- Entries of a set held. -/
def Tower.l2Ways (w : Tower) (n : Nat) : Nat := ((w.l2keep ++ w.l2).filter (fun e => decide (e.l2Set = n))).length

/-- A way of the set is made free: its last ordinary entry goes, or its last kept one (R382: eight ways). -/
def Tower.l2Room (w : Tower) (n : Nat) : Tower :=
  if w.l2Ways n < 8 then w
  else if w.l2.any (fun e => decide (e.l2Set = n)) then { w with l2 := dropLastOf n w.l2 }
  else { w with l2keep := dropLastOf n w.l2keep }

/-- Inserts into the L2 TLB by the leaf's advice (R381, R382): 2,048 entries in sets of eight ways, up to 256 of them kept.
An ordinary entry does not displace a kept one. -/
def Tower.l2Insert (w : Tower) (e : TlbEntry) : Tower :=
  let n := e.l2Set
  let kept := (w.l2keep.filter (fun x => decide (x.l2Set = n))).length
  match fld e.pte 8 7 with
  | 2 =>
    let w := w.l2Room n
    let k := e :: w.l2keep
    { w with l2keep := k.take 256, l2 := k.drop 256 ++ w.l2 }
  | adv =>
    if 8 ≤ kept then w
    else
      let w := w.l2Room n
      { w with l2 := if adv = 1 then w.l2 ++ [e] else e :: w.l2 }

/-- Inserts into a requester's TLB. -/
def Tower.tlbInsert (w : Tower) (r : Nat) (e : TlbEntry) : Tower :=
  { w with tlbs := Tab.set w.tlbs r ((e :: Tab.get [] w.tlbs r).take (tlbCap r)) }

/-- The permission check on a leaf found. -/
def leafResult (level : Nat) (pte : Dword) (acc : Access) (dva : Nat) : TrRes :=
  if leafPermits pte acc then .ok (leafFpa level pte dva)
  else .fault .permission level dva (fld pte 8 7)

/-- A walker waits for a page being migrated, or is done with a requester's walk (R382, R404). -/
def Tower.walkWaits (w : Tower) (x : Walk) : Tower :=
  if w.walks.contains x ∨ 8 ≤ w.walks.length then w else { w with walks := w.walks ++ [x] }
def Tower.walkEnds (w : Tower) (r : Nat) : Tower := { w with walks := w.walks.filter (fun x => decide (x.requester ≠ r)) }

/-- The walk for a DVA that no TLB holds: from the deepest walk-cache entry under the root, or the root (R374, R379,
R382). -/
def State.walk (s : State) (resp : Resp) (t asid dva : Nat) : WalkRes × List WalkEntry :=
  let root := s.rd (Reg.xltRoot asid)
  let top := fld root 44 12 * 4096
  if !bit root 0 then (.stop (.fault .noRoot 0 dva 0), [])
  else
    let cached := (sortBy (fun e : WalkEntry => 4 - e.level)
      ((s.tw t).walkCache.filter (fun e => decide (e.asid = asid) && decide (e.root = top)
        && decide (e.vpn = dva / 2 ^ pageLog (e.level - 1))))).head?
    match cached with
    | some e => s.walkFrom resp asid top dva 4 e.level e.next []
    | none => s.walkFrom resp asid top dva 4 1 top []

/-- Translates a DVA for requester `r` of Tower `t`: its TLB, the L2 TLB, then a walk, whose reads of the window the host
die answers with `resp` (R379, R382–R384). Only a translation that passed its checks is cached. -/
def State.translateWith (s : State) (resp : Resp) (t r : Nat) (acc : Access) (dva : Nat) : TrRes × State :=
  let w := s.tw t
  let asid := s.asidOf t
  match (Tab.get [] w.tlbs r).find? (fun e => e.hits asid dva) with
  | some e => (leafResult e.level e.pte acc dva, s)
  | none =>
    match (w.l2keep ++ w.l2).find? (fun e => e.hits asid dva) with
    | some e =>
      (leafResult e.level e.pte acc dva, if leafPermits e.pte acc then s.setTw t (w.tlbInsert r e) else s)
    | none =>
      let s := if t < 128 then s.incF (Reg.xltTlbMissMiss t) 1 else s
      match s.walk resp t asid dva with
      | (.stop .migWait, _) => (.migWait, s.setTw t (w.walkWaits ⟨r, asid, dva⟩))
      | (.bad a, _) =>
        let (host, s) := (s.setTw t (w.walkEnds r)).walkMet resp t a
        (.err host, s)
      | (.stop x, _) => (x, s.setTw t (w.walkEnds r))
      | (.leaf level pte, path) =>
        let w := w.walkEnds r
        let res := leafResult level pte acc dva
        match res with
        | .ok _ =>
          let e : TlbEntry := ⟨asid, level, dva / 2 ^ pageLog level, pte⟩
          let w := (w.l2Insert e).tlbInsert r e
          (res, s.setTw t { w with walkCache := (path ++ w.walkCache).take 64 })
        | _ => (res, s.setTw t w)

/-- A translation within an access: the host die answers a walk's reads (log entry 12). -/
def State.translate (s : State) (t r : Nat) (acc : Access) (dva : Nat) : TrRes × State := s.translateWith .ok t r acc dva

/-! The fault queue (R389–R396). -/

/-- Region of a translation fault: first DVA and log2 of its size (R392). -/
def faultRegion (kind : FaultKind) (level dva : Nat) : Nat := match kind with
  | .noRoot => 0
  | .physHole => dva / 65536 * 65536
  | _ => dva / 2 ^ pageLog level * 2 ^ pageLog level

/-- Faults and prefetches whose record is not written. -/
def State.unwritten (s : State) : List XFault := s.xlt.faults.filter (fun f => f.id.isNone)

/-- Records in the ring (R389). -/
def State.fqUsed (s : State) : Nat := (s.f Reg.xltFqProdProd + 2 ^ 32 - s.f Reg.xltFqConsCons) % 2 ^ 32

/-- The queue takes no record (R389). -/
def State.fqFull (s : State) : Bool := !s.fb Reg.xltCtrlFqEn || decide (4096 ≤ s.fqUsed)

/-- No space is left for one more record after those that wait to be written (R395, R396). -/
def State.fqNoRoom (s : State) : Bool := !s.fb Reg.xltCtrlFqEn || decide (4096 ≤ s.fqUsed + s.unwritten.length)

/-- Every record that waits to be written is held: the queue has been disabled (R389, R395). -/
def State.holdUnwritten (s : State) : State :=
  let n := (s.unwritten.filter (fun f => !f.held)).length
  let fs := s.xlt.faults.map (fun f => if f.id.isNone then { f with held := true } else f)
  (State.satF { s with xlt := { s.xlt with faults := fs } } Reg.xltFqOvfCount n).irqSync

/-- Entries of the unresolved-fault table in use. -/
def State.unresolved (s : State) : Nat := (s.xlt.faults.filter (·.inTable)).length

/-- Bit of TOWERS for a Tower; a Keep core has none. -/
def towerBit (t : Nat) : Nat := if t < 128 then 2 ^ t else 0

/-- Bit of ENGINES for a requester (R390): 0 core, 1 vector, 2 Dome, 3 tile, 4 stream. -/
def engBit (who : Nat) : Nat := 2 ^ (min who 4)

/-- A fault joins an entry of the same space, channel, kind and region: its first DVA, and its size by the level (R392). -/
def XFault.joins (f : XFault) (kind : FaultKind) (asid handle region level : Nat) : Bool :=
  decide (f.kind = kind) && decide (f.asid = asid) && decide (f.handle = handle) && decide (f.region = region)
    && decide (f.level = level) && (f.inTable || f.held) && decide (kind ≠ .physHole) && decide (kind ≠ .prefetch)

/-- Joins the first entry that takes the fault. -/
def joinFault (kind : FaultKind) (asid handle region level acc t who : Nat) : List XFault → List XFault
  | [] => []
  | f :: fs =>
    if f.joins kind asid handle region level then
      { f with access := f.access ||| acc, towers := f.towers ||| towerBit t, engines := f.engines ||| engBit who,
               members := if f.members.contains ⟨t, who⟩ then f.members else f.members ++ [⟨t, who⟩] } :: fs
    else f :: joinFault kind asid handle region level acc t who fs

/-- A fault waits for space, or for older faults that do (R395). -/
def State.mustHold (s : State) (table : Bool) : Bool :=
  s.fqNoRoom || (table && decide (512 ≤ s.unresolved)) || s.unwritten.any (·.held)

/-- A translation fault of a requester: it joins an entry or takes a new one, or is held (R391, R392, R395). Each faulting element
of the vector unit is a fault (R251); a stream slot that reaches the page at which its translation ahead stopped meets the same
fault. -/
def State.raiseFault (s : State) (t who : Nat) (kind : FaultKind) (acc : Access) (level addr adv dva : Nat) : State :=
  let asid := s.asidOf t
  let handle := s.handleOf t
  let region := faultRegion kind level dva
  match s.xlt.faults.find? (fun f => f.joins kind asid handle region level) with
  | some f =>
    let fs := joinFault kind asid handle region level (accBit acc) t who s.xlt.faults
    let s := { s with xlt := { s.xlt with faults := fs } }
    if f.id.isSome && (decide (who = 1) || !f.members.contains ⟨t, who⟩) then s.satF Reg.xltFqJoinCount 1 else s
  | none =>
    let hold := s.mustHold true
    let f : XFault := ⟨none, !hold, hold, kind, asid, handle, region, addr, level, adv, accBit acc, towerBit t, engBit who,
      false, 0, [⟨t, who⟩]⟩
    let s := { s with xlt := { s.xlt with faults := s.xlt.faults ++ [f] } }
    (if hold then s.satF Reg.xltFqOvfCount 1 else s).irqSync

/-- A physical-hole fault of a requester (R32, R33, R391): a record, and the step ends or is struck. -/
def State.holeFault (s : State) (t who : Nat) (acc : Access) (fpa dva : Nat) (part : Bool) : State :=
  let hold := s.mustHold false
  let f : XFault := ⟨none, false, hold, .physHole, s.asidOf t, s.handleOf t, faultRegion .physHole 0 dva, fpa, 0, 0,
    accBit acc, towerBit t, engBit who, part, 0, []⟩
  let s := { s with xlt := { s.xlt with faults := s.xlt.faults ++ [f] } }
  let s := (if hold then s.satF Reg.xltFqOvfCount 1 else s).irqSync
  if part then s.strike t else s.programError t

/-- The members of a Tower leave their entries (R394): an entry without members is freed, and its record is never written.
A physical-hole or prefetch record has no member and stays. -/
def State.leaveFaults (s : State) (t : Nat) : State :=
  let fs := s.xlt.faults.map (fun f => { f with members := f.members.filter (fun m => decide (m.tower ≠ t)) })
  let fs := fs.filter (fun f => !(decide (f.members = []) && decide (f.kind ≠ .physHole) && decide (f.kind ≠ .prefetch)))
  State.irqSync { s with xlt := { s.xlt with faults := fs } }

/-- A requester that waited on a fault goes on (R250, R393, R404): the tile engine and the vector unit clear STOPPED. -/
def State.resumeWho (s : State) (t who : Nat) : State :=
  let go := fun (x : Stop) => if x = .xlat then Stop.running else x
  let wake := fun (k : Core) => if k.wait = .translation then { k with wait := .none } else k
  match who with
  | 0 => if t < 128 then s.modTw t (fun w => { w with core := wake w.core })
    else if t = 128 then { s with keep0 := wake s.keep0 } else { s with keep1 := wake s.keep1 }
  | 1 => if (s.tw t).sVec = .xlat then (s.modTw t (fun w => { w with sVec := .running })).setF (Reg.vecStatStopped t) 0 else s
  | 2 => s.modTw t (fun w => { w with sDom := go w.sDom })
  | 3 => if (s.tw t).sTile = .xlat then (s.modTw t (fun w => { w with sTile := .running })).setF (Reg.twrTstatStopped t) 0 else s
  | k => s.modTw t (fun w =>
    let sl := Tab.get {} w.slots (k - 4)
    { w with slots := Tab.set w.slots (k - 4) { sl with stopped := if sl.stopped = 2 then 0 else sl.stopped, aheadStop := false } })

/-- Code of a record's KIND (R390). -/
def kindCode : FaultKind → Nat
  | .notPresent => 1 | .permission => 2 | .badEntry => 3 | .noRoot => 4 | .physHole => 0x10 | .prefetch => 0x20

/-- TOWERS of a record: the Towers with a member as it is written (R390). -/
def XFault.towersNow (f : XFault) : Nat :=
  if f.kind = .physHole ∨ f.kind = .prefetch then f.towers
  else f.members.foldl (fun (n : Nat) m => n ||| towerBit m.tower) 0

/-- The 64 bytes of a fault record (R390). -/
def faultRecord (f : XFault) (id roll : Nat) : List Byte :=
  let fatal := decide (f.kind = .physHole)
  leBytes 8 f.region ++ leBytes 8 f.addr ++ leBytes 16 f.towersNow ++ leBytes 4 f.handle ++ leBytes 4 id
    ++ leBytes 8 roll ++ leBytes 1 f.asid ++ leBytes 1 (kindCode f.kind) ++ leBytes 1 f.access ++ leBytes 1 f.engines
    ++ leBytes 1 f.level ++ leBytes 1 (b2n fatal + 2 * b2n f.part + 4 * b2n f.held + 8 * f.adv)
    ++ leBytes 2 f.count ++ leBytes 8 0

end Sys2Proof.Machine
end

