-- ==== Sys2Proof/Machine/Access.lean ====
section
/-! DEFINITION. Segment checks, the resolution of an access to physical pieces, and the request tracker (R271, R272,
R349–R353, R425). -/

namespace Sys2Proof.Machine

/-! Segment descriptors (R271). -/

def Seg.base (g : Seg) : Nat := fld g.w0 56 0
def Seg.limit (g : Seg) : Nat := fld g.w1 63 16
def Seg.phys (g : Seg) : Bool := bit g.w1 8
def Seg.policy (g : Seg) : Nat := fld g.w1 7 6
def Seg.region (g : Seg) : Nat := fld g.w1 5 4
def Seg.x (g : Seg) : Bool := bit g.w1 2
def Seg.w (g : Seg) : Bool := bit g.w1 1
def Seg.r (g : Seg) : Bool := bit g.w1 0
def Seg.null (g : Seg) : Bool := !g.r && !g.w && !g.x

/-- The descriptor in 16 bytes, and back. -/
def Seg.bytes (g : Seg) : List Byte := leBytes 8 g.w0.toNat ++ leBytes 8 g.w1.toNat
def Seg.ofBytes (bs : List Byte) : Seg := ⟨BitVec.ofNat 64 (leAt bs 0 8), BitVec.ofNat 64 (leAt bs 8 8)⟩

/-- A physical BASE as an FPA: with REGION of this module and no module number it is an LPA (R271). -/
def State.physFpa (s : State) (region a : Nat) : Nat :=
  if region ≠ 3 ∧ a / 2 ^ 45 = 0 then s.self * 2 ^ 45 + a else a

/-- An FPA lies in the range that REGION names, holes included (R272 check 5). -/
def State.inRegion (s : State) (region fpa : Nat) : Bool :=
  let m := fpa / 2 ^ 45
  let a := fpa % 2 ^ 45
  match region with
  | 0 => decide (m = s.self) && decide (0x100000000000 ≤ a) && decide (a < 0x180000000000)
  | 1 => decide (m = s.self) && decide (a < 0x100000000000)
  | 2 => decide (m = s.self) && decide (0x180000000000 ≤ a) && decide (a < 0x1F0000000000)
  | _ => decide (m ≠ s.self)

/-- A descriptor is invalid at a level (R271). -/
def State.segInvalid (s : State) (keep : Bool) (g : Seg) : Bool :=
  (g.w && g.x) || decide (fld g.w0 63 57 ≠ 0) || decide (fld g.w1 15 9 ≠ 0) || bit g.w1 3
    || (g.phys && !keep)
    || (!g.phys && decide (2 ^ 48 ≤ g.base + g.limit))
    || (g.phys && !(s.inRegion g.region (s.physFpa g.region g.base)
        && s.inRegion g.region (s.physFpa g.region g.base + g.limit)
        && decide (s.physFpa g.region g.base / 2 ^ 45 = (s.physFpa g.region g.base + g.limit) / 2 ^ 45)))

/-- Why an access does not go through. -/
inductive AccErr where
  /-- segment fault: sub-cause and lowest faulting offset (R272) -/
  | seg (sub off : Nat)
  /-- translation fault at a DVA (R387) -/
  | xlat (kind : FaultKind) (level addr adv dva : Nat)
  /-- the page is being migrated (R404) -/
  | migWait
  /-- an error response to the walk; `host` for a host error completion (R566) -/
  | walkErr (host : Bool)
  /-- a physical hole of this module: FPA and DVA of the lowest faulting byte (R32) -/
  | hole (fpa dva : Nat)
deriving DecidableEq, Repr

/-- Segment permission for an access. -/
def Seg.permits (g : Seg) (acc : Access) : Bool := match acc with
  | .read => g.r
  | .write => g.w
  | .fetch => g.x

/-- Checks 1 to 3 of R272 on `n ≥ 1` bytes at offset `o`. -/
def Seg.check (g : Seg) (acc : Access) (o n : Nat) : Option AccErr :=
  if g.null then some (.seg 1 o)
  else if g.limit < o + n - 1 then some (.seg 2 (max o (g.limit + 1)))
  else if !g.permits acc then some (.seg 3 o)
  else none

/-- Splits `n` bytes at `a` at multiples of 64 KiB, the smallest page. -/
def pageSplit : Nat → Nat → Nat → List (Nat × Nat)
  | 0, _, _ => []
  | fuel + 1, a, n =>
    if n = 0 then [] else
    let k := min n (65536 - a % 65536)
    (a, k) :: pageSplit fuel (a + k) (n - k)

/-- The lowest byte of a piece that lies in a hole of its range, if any (R272, R275). -/
def State.holeIn (s : State) (fpa k : Nat) : Option Nat :=
  if s.place fpa = .hole then some fpa
  else if s.place (fpa + k - 1) = .hole then
    some (max fpa (if fpa % 2 ^ 45 < 0x100000000000 then s.f Reg.memSizeSize + fpa / 2 ^ 45 * 2 ^ 45
      else (fpa + k - 1) / 0x200000 * 0x200000))
  else none

/-- Translates the pieces of an access and applies the REGION check and the hole check, in address order (R272,
R275). -/
def State.resolvePieces (s : State) (t r : Nat) (g : Seg) (acc : Access) :
    List (Nat × Nat) → List Piece → Except AccErr (List Piece) × State
  | [], done => (.ok done.reverse, s)
  | (a, k) :: ps, done =>
    let (tr, s') := if g.phys then (TrRes.ok (s.physFpa g.region a), s) else s.translate t r acc a
    match tr with
    | .fault kind level addr adv => (.error (.xlat kind level addr adv a), s')
    | .migWait => (.error .migWait, s')
    | .err h => (.error (.walkErr h), s')
    | .ok fpa =>
      if !s'.inRegion g.region fpa then (.error (.seg 4 (a - g.base)), s')
      else match s'.holeIn fpa k with
        | some h => (.error (.hole h (a + (h - fpa))), s')
        | none => s'.resolvePieces t r g acc ps (⟨fpa, k, a⟩ :: done)

/-- Resolves `n` bytes at offset `o` through a segment for requester `r` (a TLB number of R382) of Tower `t`: physical
pieces in order, or the first check that fails (R272). -/
def State.resolve (s : State) (t r : Nat) (g : Seg) (acc : Access) (o n : Nat) :
    Except AccErr (List Piece) × State :=
  match g.check acc o n with
  | some e => (.error e, s)
  | none => s.resolvePieces t r g acc (pageSplit (n / 65536 + 2) (g.base + o) n) []

/-! The request tracker. -/

/-- Requester number in the tracker to the TLB that serves it. -/
def whoTlb (who : Nat) : Nat := match who with
  | 0 => 0 | 1 => 1 | 2 => 3 | 3 => 2 | k => k + 2

/-- The tracker a core uses: a Keep core has one of its own, numbered 128 + die (R419). -/
def trackIdx : CoreId → Nat
  | .tower t => t.toNat
  | .keep d => 128 + b2n d

/-- A request of an access. -/
structure Req where
  fpa : Nat
  len : Nat
  dva : Nat
  write : Bool
  data : List Byte
deriving DecidableEq, Repr

/-- The place answers later: the host window or another module. -/
def State.later (s : State) (fpa : Nat) : Bool := match s.place fpa with
  | .hostWin => true
  | .remote _ => true
  | _ => false

/-- A piece cut at the granules of 64 bytes (R343). -/
def Piece.split (p : Piece) : List Piece := (granules p.fpa p.len).map (fun q => ⟨q.1, q.2, p.dva + (q.1 - p.fpa)⟩)

/-- Requests of a read of pieces, and of a write of bytes to pieces. -/
def readReqs (ps : List Piece) : List Req :=
  (ps.flatMap Piece.split).map (fun q => ⟨q.fpa, q.len, q.dva, false, []⟩)
def writeReqs : List Piece → List Byte → List Req
  | [], _ => []
  | p :: ps, bs =>
    p.split.map (fun q => ⟨q.fpa, q.len, q.dva, true, (bs.drop (q.fpa - p.fpa)).take q.len⟩) ++ writeReqs ps (bs.drop p.len)

/-- Entries reserved for a requester (R350). -/
def trackReserve (who : Nat) : Nat := match who with
  | 0 => 16 | 1 => 512 | 2 => 128 | 3 => 256 | _ => 0

/-- Entries in use by a requester, and in all. -/
def Tower.used (w : Tower) (who : Nat) : Nat := (w.track.filter (fun e => !e.done && decide (e.who = who))).length
def Tower.usedAll (w : Tower) : Nat := (w.track.filter (fun e => !e.done)).length

/-- Entries a requester may still take (R350). -/
def State.trackRoom (s : State) (t who : Nat) : Nat :=
  let w := s.tw t
  let n := w.used who
  let sharedUsed := ((range 0 20).map (fun i => w.used i - trackReserve i)).foldl (· + ·) 0
  let shared := 7280 - sharedUsed
  if who < 4 then (trackReserve who - n) + shared else min shared (s.f (Reg.accTrkCfgSlotMax t) - n)

/-- The trackers that send under a packet's TOWER: Tower 127 and the Keeps share the code 0x7F (R419). -/
def trackersOf (t : Nat) : List Nat := if t < 127 then [t] else [127, 128, 129]

/-- The lowest tag not in use, nor awaited late, unless all 8,192 are; trackers that share a TOWER code share tags (R419, R427; DESIGN
CHOICE, log entry 122). -/
def State.freeTag (s : State) (t : Nat) : Nat :=
  let l := trackersOf t
  let used := l.flatMap (fun i => (s.tw i).track.map (·.tag))
  let kept := used ++ l.flatMap (fun i => (s.tw i).late)
  (((List.range (min 8192 (kept.length + 1))).find? (fun k => !kept.contains k)).orElse (fun _ =>
    (List.range (used.length + 1)).find? (fun k => !used.contains k))).getD 0

/-- The answer to a request that timed out comes, and is discarded: its tag is free again (R427). -/
def State.lateAnswer (s : State) (t tag : Nat) : State :=
  overList (trackersOf t) (fun i s =>
    if (s.tw i).late.contains tag then s.modTw i (fun w => { w with late := w.late.filter (fun k => decide (k ≠ tag)) }) else s) s

/-- The packet of a remote request (R419, R420, R425). -/
def State.reqPacket (s : State) (t tag : Nat) (q : Req) : Packet :=
  let lpa := q.fpa % 2 ^ 45
  { type := if q.write then 2 else 1, vc := 0, detour := 0, pin := false,
    dest := BitVec.ofNat 12 (q.fpa / 2 ^ 45), src := BitVec.ofNat 12 s.self, tower := BitVec.ofNat 7 (min t 127),
    tag := BitVec.ofNat 13 tag, off := BitVec.ofNat 6 (lpa % 64), len := BitVec.ofNat 6 (q.len - 1),
    lpa := BitVec.ofNat 45 (lpa / 64 * 64), arg := 0,
    data := if q.write then
        let lead := lpa % 64 / 16 * 16
        padTo (roundUp (lpa % 64 + q.len - lead) 16) (List.replicate (lpa % 64 - lead) 0 ++ q.data)
      else [] }

/-- `ACC_TRK.HIGH` covers `n` entries in use (R371). -/
def State.trackHigh (s : State) (t n : Nat) : State :=
  if t < 128 ∧ s.f (Reg.accTrkHigh t) < n then s.setF (Reg.accTrkHigh t) n else s

/-- Takes a tracker entry for a request and sends it (R349). A request to device memory or to a Tower store of this module
is answered within the command that issues it, so its entry is free again at once (log entry 12). -/
def State.issue (s : State) (t who : Nat) (posted : Bool) (q : Req) : State :=
  if s.later q.fpa then
    let tag := s.freeTag t
    let e : Track := ⟨tag, who, q.fpa, q.len, q.dva, q.write, posted, q.data, false, false, false, none⟩
    let s := s.modTw t (fun w => { w with track := w.track ++ [e] })
    let s := s.trackHigh t (s.tw t).usedAll
    match s.place q.fpa with
    | .remote _ => { s with outbox := s.outbox ++ [s.reqPacket t tag q] }
    | _ => s
  else s.trackHigh t ((s.tw t).usedAll + 1)

/-- A write of the requester's own to the granule awaits its acceptance (R425). -/
def Tower.writeBusy (w : Tower) (who fpa : Nat) : Bool :=
  w.track.any (fun e => e.write && !e.done && decide (e.who = who) && decide (e.fpa / 64 = fpa / 64))

/-- Says whether a requester waits for an entry (R350). One that has waited counts its tc in `ACC_TRK_WAIT`, a number that
the model's steps do not give (log entry 18). -/
def State.starve (s : State) (t who : Nat) (yes : Bool) : State :=
  if (s.tw t).starved.contains who = yes then s
  else
    let s := s.modTw t (fun w =>
      { w with starved := (w.starved.filter (fun x => decide (x ≠ who))) ++ (if yes then [who] else []) })
    if yes || decide (128 ≤ t) then s
    else
      let (v, s) := s.free
      s.incF (Reg.accTrkWaitWait t) v.toNat

/-- Issues requests while entries are free, at most `lim` of them: how many. -/
def State.issueSome (s : State) (t who : Nat) : Nat → List Req → Nat → Nat × State
  | 0, _, n => (n, s)
  | _, [], n => (n, s)
  | lim + 1, q :: qs, n =>
    if s.trackRoom t who = 0 then (n, s.starve t who true)
    else if q.write ∧ (s.tw t).writeBusy who q.fpa = true then (n, s)
    else ((s.issue t who false q).starve t who false).issueSome t who lim qs (n + 1)

/-- Requests that leave the Tower's own store (R349). -/
def State.outside (s : State) (t : Nat) (reqs : List Req) : List Req :=
  reqs.filter (fun q => decide (s.place q.fpa ≠ .store t))

/-- Whether an instruction's requests have been answered. -/
inductive Gate where
  /-- all are: the bytes read from places that answer later, by FPA -/
  | ready (bytes : Tab Byte)
  | blocked
deriving DecidableEq, Repr

/-- An instruction's own entries in the tracker. -/
def Tower.mine (w : Tower) (who : Nat) : List Track := w.track.filter (fun e => decide (e.who = who) && !e.posted && !e.orphan)

/-- Requests whose instruction is given up: those answered leave the tracker, the others stay until their answers come,
which are discarded (R349, R427). -/
def orphans (p : Track → Bool) (l : List Track) : List Track :=
  l.filterMap (fun e => if p e then (if e.done then none else some { e with orphan := true }) else some e)

/-- Bytes that answered reads brought, by FPA. -/
def answersOf (l : List Track) : Tab Byte :=
  l.foldl (fun (b : Tab Byte) e =>
    if e.write then b else (e.data.foldl (fun (a : Tab Byte × Nat) x => (Tab.set a.1 a.2 x, a.2 + 1)) (b, e.fpa)).1) []

/-- The number of the first `n` requests that are answered later. -/
def State.laterOf (s : State) (reqs : List Req) : List Req := reqs.filter (fun q => s.later q.fpa)

/-- Issues an instruction's requests as entries free, at most `lim` at once, and says when all are answered. Its entries
stay until `ungate`. -/
def State.gateN (s : State) (lim t who : Nat) (reqs : List Req) : Gate × State :=
  let reqs := s.outside t reqs
  let n := Tab.get 0 (s.tw t).gates who
  let (k, s) := if n < reqs.length then s.issueSome t who lim (reqs.drop n) 0 else (0, s)
  let s := if k = 0 then s else s.modTw t (fun w => { w with gates := Tab.set w.gates who (n + k) })
  let mine := ((s.tw t).mine who).take (s.laterOf reqs).length
  if n + k < reqs.length ∨ mine.any (fun e => !e.done) = true then (.blocked, s) else (.ready (answersOf mine), s)

/-- As `gateN`, issuing all it can; while another requester waits for an entry, requesters take entries one at a time
(R350). -/
def State.gateKeep (s : State) (t who : Nat) (reqs : List Req) : Gate × State :=
  s.gateN (if (s.tw t).starved.any (fun x => decide (x ≠ who)) then 1 else reqs.length) t who reqs

/-- Abandons what an instruction of a requester has outstanding; answers still arriving are discarded. -/
def State.ungate (s : State) (t who : Nat) : State :=
  (s.modTw t (fun w => { w with
    track := orphans (fun e => decide (e.who = who) && !e.posted) w.track, gates := Tab.del w.gates who,
    plans := Tab.del w.plans who })).starve t who false

/-- As `gateKeep`, for an instruction whose last requests these are: its entries are freed once all are answered. -/
def State.gate (s : State) (t who : Nat) (reqs : List Req) : Gate × State :=
  match s.gateKeep t who reqs with
  | (.blocked, s) => (.blocked, s)
  | (.ready b, s) => (.ready b, s.ungate t who)

/-- Bytes at physical pieces: those answered, and those of this module's own memory. -/
def State.gather (s : State) (bytes : Tab Byte) (ps : List Piece) : List Byte :=
  ps.flatMap (fun p => (range p.fpa p.len).map (fun a =>
    match Tab.find bytes a with
    | some b => b
    | none => if s.later a then 0 else Tab.get 0 s.mem (a % 2 ^ 45)))

/-- Some local piece of a read gets an error response; each counts (R360). `t` is the Tower that asks. -/
def State.readLocal (s : State) (t : Nat) (ps : List Piece) : Bool × State :=
  (ps.filter (fun p => !s.later p.fpa)).foldl (fun (acc : Bool × State) p =>
    let (_, e, s') := acc.2.readMem t (p.fpa % 2 ^ 45) p.len
    (acc.1 || e, s')) (false, s)

/-- Writes bytes to the pieces that lie in this module's own memory; the others went through the tracker. -/
def State.scatter (s : State) (t : Nat) : List Piece → List Byte → Bool × State
  | [], _ => (false, s)
  | p :: ps, bs =>
    let (e, s') := if s.later p.fpa then (false, s) else s.writeMem t (p.fpa % 2 ^ 45) (bs.take p.len)
    let (e', s'') := s'.scatter t ps (bs.drop p.len)
    (e || e', s'')

/-- All pieces lie in the Tower's own store. -/
def State.ownStore (s : State) (t : Nat) (ps : List Piece) : Bool :=
  ps.all (fun p => decide (s.place p.fpa = .store t))

/-- A piece that passed its checks now lies in a hole: the Tower whose store it is has been retired meanwhile (R33). -/
def State.lostPiece (s : State) (ps : List Piece) : Option Piece :=
  ps.find? (fun p => decide (s.place p.fpa = .hole))

end Sys2Proof.Machine
end

