-- ==== Sys2Proof/Machine/Queues.lean ====
section
/-! DEFINITION. The six engine queues of a Tower: what they hold, which are stopped, and which cannot go on before a handler
has run (R24, R292, R297). -/

namespace Sys2Proof.Machine

/-- Position of an engine in the queue mask (R292); `ecause.ENGINE` is one more (R262). -/
def Eng.num : Eng → Nat
  | .vec => 0 | .spr => 1 | .dom => 2 | .tur => 3 | .tile => 4 | .str => 5
def allEngines : List Eng := [.vec, .spr, .dom, .tur, .tile, .str]

def Tower.queue (w : Tower) : Eng → List QEntry
  | .vec => w.qVec | .spr => w.qSpr | .dom => w.qDom | .tur => w.qTur | .tile => w.qTile | .str => w.qStr
def Tower.setQueue (w : Tower) (e : Eng) (q : List QEntry) : Tower := match e with
  | .vec => { w with qVec := q } | .spr => { w with qSpr := q } | .dom => { w with qDom := q }
  | .tur => { w with qTur := q } | .tile => { w with qTile := q } | .str => { w with qStr := q }
def Tower.stop (w : Tower) : Eng → Stop
  | .vec => w.sVec | .spr => w.sSpr | .dom => w.sDom | .tur => w.sTur | .tile => w.sTile | .str => w.sStr
def Tower.setStop (w : Tower) (e : Eng) (x : Stop) : Tower := match e with
  | .vec => { w with sVec := x } | .spr => { w with sSpr := x } | .dom => { w with sDom := x }
  | .tur => { w with sTur := x } | .tile => { w with sTile := x } | .str => { w with sStr := x }

/-- Some instruction pushed before `n` into the queue is not complete (R292). -/
def Tower.pendingBefore (w : Tower) (e : Eng) (n : Nat) : Bool :=
  (w.queue e).any (fun x => decide (x.serial < n))
    || (decide (e = .str) && w.slots.any (fun l => l.2.fifo.any (fun x => decide (x.serial < n))))

/-- Queues of a mask (R292). -/
def maskEngines (mask : Nat) : List Eng := allEngines.filter (fun e => mask.testBit e.num)

/-- A slot is stopped on a segment fault. -/
def Slot.stuck (l : Slot) : Bool := l.fifo.any (fun x => decide (x.check = .seg))

/-- Engines that cannot complete their queues before a handler has run: those in `stops`, and those held by a marker that
waits on such a one. -/
def Tower.stuck (w : Tower) (stops : List Eng) : Nat → List Eng
  | 0 => stops
  | n + 1 =>
    let l := w.stuck stops n
    allEngines.filter (fun e => l.contains e || (match (w.queue e).head? with
      | some x => match x.kind with
        | .marker mask => (maskEngines mask).any (fun m => l.contains m && w.pendingBefore m x.serial)
        | _ => false
      | none => false))

/-- Engines stopped on a segment fault. -/
def Tower.segStops (w : Tower) : List Eng :=
  allEngines.filter (fun e => decide (w.stop e = .segFault) || (decide (e = .str) && w.slots.any (fun l => l.2.stuck)))

/-- Engines stopped by an error of their own. -/
def Tower.errStops (w : Tower) : List Eng :=
  allEngines.filter (fun e => decide (w.stop e = .error))

/-- The core waits for engines of which one cannot go on before a handler has run (R257, R210; log entry 49). -/
def Tower.waitStuck (w : Tower) : Bool := match w.core.wait with
  | .engineResult mask =>
    let l := w.stuck (w.segStops ++ w.errStops) 6
    (maskEngines mask).any (fun e => l.contains e)
  | _ => false

end Sys2Proof.Machine
end

