-- ==== Sys2Proof/Machine/Operands.lean ====
section
/-! DEFINITION. What every scalar instruction shares: when a core issues, retirement, exceptions, stalls, segment
operands (R262, R295–R303). -/

namespace Sys2Proof.Machine

/-- The outcome of a command. -/
abbrev Out := Host.Outcome State Fault Refusal

/-- A Keep runs: the module is alive, and the follower has not failed (R28, R517). -/
def State.keepUp (s : State) (d : Bool) : Bool := s.alive && (!d || !s.fb Reg.keepStatLeaderOnly)

/-- The core executes: its Tower runs a step and is not held, or its Keep is up (log entry 9). -/
def State.executes (s : State) (c : CoreId) : Bool := match c with
  | .tower t => decide ((s.tw t.toNat).run = .running) && !(s.tw t.toNat).held
  | .keep d => s.keepUp d

def Core.handlerRuns (k : Core) : Bool := bit k.estat 0
def Core.vectorsOn (k : Core) : Bool := bit k.evec 0

/-- An engine-origin exception is due at the next instruction boundary (R297). -/
def Core.engDue (k : Core) : Bool := decide (k.engPend ≠ []) && !k.handlerRuns

/-- The core stands where an engine-origin exception is taken: at an instruction boundary or in a stall that it ends
(R297). -/
def Wait.yields (w : Wait) : Bool := match w with
  | .none | .queueFull | .waitQ | .bwait .. | .engineOrdered => true
  | _ => false

/-- The core of a Tower stands where an engine-origin exception is taken: also where it waits for an engine that goes on only
after a handler (R297; log entry 49). -/
def State.yieldsAt (s : State) (c : CoreId) : Bool := (s.core c).wait.yields || match c with
  | .tower t => (s.tw t.toNat).waitStuck
  | .keep _ => false

/-- A wait that the instruction itself ends when it executes again. -/
def Wait.retries (w : Wait) : Bool := match w with
  | .none | .translation | .halted => false
  | _ => true

/-- The core issues an instruction: it executes, waits at no other one, and has no exception to take first (R25, R297,
R312, R387). -/
def State.issuing (s : State) (c : CoreId) : Bool :=
  let k := s.core c
  s.executes c && decide (k.wait = .none) && !k.engDue

/-- The core issues the instruction of word `w`, or goes on with it where it waits at it. -/
def State.issuingAt (s : State) (c : CoreId) (w : Word) : Bool :=
  let k := s.core c
  s.issuing c || (s.executes c && k.wait.retries && decide (k.waitAt = w) && !(s.yieldsAt c && k.engDue))

/-- A scalar command on a core that does not issue changes nothing (log entry 9). -/
def onCore (c : CoreId) (s : State) (f : State → Out) : Out := if s.issuing c then f s else .next s

/-- As `onCore`, for an instruction that can wait: the core that waits at it goes on with it. -/
def onCoreAt (c : CoreId) (w : Word) (s : State) (f : State → Out) : Out := if s.issuingAt c w then f s else .next s

/-- An event of the core, which may stand in a wait. -/
def onReady (c : CoreId) (s : State) (f : State → Out) : Out :=
  if s.executes c && decide ((s.core c).wait ≠ .translation) && decide ((s.core c).wait ≠ .halted) then f s else .next s

/-- Counts a completed instruction of a Tower (R336). -/
def State.countInst (s : State) (c : CoreId) : State := match c with
  | .tower t => s.incF (Reg.twrInstretInstret t.toNat) 1
  | .keep _ => s

/-- The instruction completes: the core holds `k` with the pc given, and no longer waits. -/
def State.retireTo (s : State) (c : CoreId) (k : Core) (pc : Dword) : State :=
  (s.setCore c { k with pc := pc, wait := .none }).countInst c

/-- The instruction completes and the pc moves to the next one. -/
def State.retire (s : State) (c : CoreId) (k : Core) : State := s.retireTo c k (k.pc + 4)

/-- The core waits at the instruction of word `at'`, which executes again when the command is sent again (log entry 8). -/
def State.stall (s : State) (c : CoreId) (w : Wait) (at' : Word) : State :=
  s.modCore c (fun k => { k with wait := w, waitAt := at' })

/-- `ecause` (R262). -/
def causeWord (engine sub cause : Nat) : Dword := BitVec.ofNat 64 (engine * 65536 + sub * 256 + cause)

/-- Exception entry (R298): the cause, address and resume offset are recorded, H is set, and the pc goes to the
handler. -/
def Core.enter (k : Core) (engine sub cause : Nat) (eaddr epc : Dword) : Core :=
  { k with ecause := causeWord engine sub cause, eaddr := eaddr, epc := epc, estat := setBit k.estat 0 true,
           pc := BitVec.ofNat 64 (fld k.evec 63 12 * 4096 + 64 * cause), wait := .none, loop := .idle }

/-- The core's own exception of cause 0x01 to 0x05 (R296, R298): entry, or the end of the step as a program error. -/
def State.except (s : State) (c : CoreId) (cause sub : Nat) (eaddr epc : Dword) : Out :=
  let k := s.core c
  if k.vectorsOn && !k.handlerRuns then .next (s.setCore c (k.enter 0 sub cause eaddr epc))
  else match c with
    | .tower t => .next (s.programError t.toNat)
    | .keep _ => .fault .keepException

/-- Illegal instruction: cause 0x01 with the word in `eaddr` (R265, R296). -/
def State.illegal (s : State) (c : CoreId) (w : Word) : Out := s.except c 1 0 (w.setWidth 64) (s.core c).pc

/-- Privilege fault: cause 0x03 (R296). -/
def State.privilege (s : State) (c : CoreId) (a : Nat) : Out := s.except c 3 0 (BitVec.ofNat 64 a) (s.core c).pc

/-- Bit fault: cause 0x04 (R286). -/
def State.bitFault (s : State) (c : CoreId) (a : Nat) : Out := s.except c 4 0 (BitVec.ofNat 64 a) (s.core c).pc

/-- A part fault of a core's access strikes its step; a Keep core runs no step. -/
def State.strikeCore (s : State) (c : CoreId) : State := match c with
  | .tower t => s.strike t.toNat
  | .keep _ => s

/-- A walk of a core met an error response: the step is struck, or ends as a program error for a host error completion
(R566). -/
def State.walkFails (s : State) (c : CoreId) (host : Bool) : State := match c with
  | .tower t => if host then s.programError t.toNat else s.strike t.toNat
  | .keep _ => s

/-- What follows when a scalar access at the instruction of word `w` does not go through (R272, R387, R404, R566). A Keep
core's access to a hole completes without data: `done'` is the instruction's completion; no channel is confined (R32; log
entry 41). -/
def State.accessFails (s : State) (c : CoreId) (w : Word) (acc : Access) (e : AccErr) (done' : State → Out) : Out :=
  match e with
  | .seg sub off => s.except c 2 sub (BitVec.ofNat 64 off) (s.core c).pc
  | .xlat kind level addr adv dva => .next ((s.raiseFault (trackIdx c) 0 kind acc level addr adv dva).stall c .translation w)
  | .migWait => .next (s.stall c .uncached w)
  | .walkErr host => .next (s.walkFails c host)
  | .hole fpa dva => match c with
    | .tower t => .next (s.holeFault t.toNat 0 acc fpa dva false)
    | .keep _ => done' s

/-- Resolves an access of a core: a Tower core translates in its step's space. A Keep core translates only through a
descriptor with PHYS = 0, in a space the spec does not name (R263, R373; log entry 41). -/
def State.coreResolve (s : State) (c : CoreId) (g : Seg) (acc : Access) (o n : Nat) :
    Except AccErr (List Piece) × State := s.resolve (trackIdx c) 0 g acc o n

/-- The core reads its registers for an instruction: an uncorrectable error there is a machine check (R505). -/
def withRegs (c : CoreId) (up : Upset) (s : State) (f : State → Out) : Out :=
  if up = .regs then .next (s.machineCheck c 5 0) else f s

/-- A sum of a register and a signed displacement as an unsigned 64-bit offset. DESIGN CHOICE (log entry 114): the sum wraps, for a
bit address too (R286), of which the spec does not say it. -/
def offsetOf (v : Dword) (disp : Int) : Nat := (v + dw disp).toNat

/-- The loop buffer at a control transfer (R306, R307). -/
def LoopBuf.transfer (l : LoopBuf) (pc target : Nat) (taken link : Bool) : LoopBuf :=
  if link then .idle
  else if !taken then
    match l with
    | .record _ b | .active _ b => if pc = b then .idle else l
    | .idle => .idle
  else
    let back := decide (target < pc) && decide (pc ≤ target + 4 * 63)
    match l with
    | .record t b =>
      if pc = b && target = t then .active t b
      else if t ≤ target && target ≤ b then l
      else if back then .record target pc else .idle
    | .active t b =>
      if t ≤ target && target ≤ b then l else if back then .record target pc else .idle
    | .idle => if back then .record target pc else .idle

end Sys2Proof.Machine
end

