-- ==== Sys2Proof/Machine/EngCore.lean ====
section
/-! DEFINITION. What the six engine queues share: the capture of operands, engine errors and faults,
reads and writes of memory by an engine (R24, R278, R297, R330, R354). -/

namespace Sys2Proof.Machine

/-- What an engine's attempt at an instruction gives: whether it completed, and the state. -/
abbrev ERes := Bool × State

/-- An entry at the end of a queue, with operands captured (R166, R278). -/
def Tower.pushEntry (w : Tower) (e : Eng) (kind : QKind) (segs : List R3) (g : List Dword) (q : Qword)
    (vl fmt : Nat) (bad : Bool) : Tower :=
  let ent : QEntry := ⟨w.serial, kind, segs.map (fun r => (r.toNat, w.core.getS r)), g, q, vl, fmt, bad, .due⟩
  { w.setQueue e (w.queue e ++ [ent]) with serial := w.serial + 1 }

/-- The captured segment and g operand of a position. -/
def QEntry.seg (x : QEntry) (i : Nat) : Seg := ((x.segs[i]?).getD (0, {})).2
def QEntry.gv (x : QEntry) (i : Nat) : Dword := (x.g[i]?).getD 0

/-- The Tower's engines act: its step runs and is not held (R159, R467). -/
def State.enginesOn (s : State) (t : Nat) : Bool := decide ((s.tw t).run = .running) && !(s.tw t).held

/-! What an engine has under way. -/

/-- The requester of an engine in the tracker (R350); the Spire, the Turret and the dispatcher issue no requests. -/
def Eng.who : Eng → Nat
  | .vec => 1 | .dom => 2 | .tile => 3 | _ => 1000

/-- Says whether the instruction at the head of an engine's queue has started. -/
def Tower.setBegun (w : Tower) (e : Eng) (yes : Bool) : Tower :=
  { w with begun := w.begun.filter (fun n => decide (n ≠ e.num)) ++ (if yes then [e.num] else []) }
def State.start (s : State) (t : Nat) (e : Eng) : State := s.modTw t (fun w => w.setBegun e true)

/-- The plan of an entry of requester `who`, once it is in its data phase (R246). -/
def Tower.planOf (w : Tower) (who : Nat) (x : QEntry) : Option Plan :=
  (Tab.find w.plans who).filter (fun p => decide (p.serial = x.serial))

/-- An instruction enters its data phase, or goes on to its next row. -/
def State.putPlan (s : State) (t who : Nat) (p : Plan) : State :=
  s.modTw t (fun w => { w with plans := Tab.set w.plans who p })

/-- An engine acts: in a running step, or, once its step is preempted, to complete what it has under way: a vector store,
a row of a tile, a Dome instruction that has started (R218, R220, R255). -/
def State.engineActs (s : State) (t : Nat) (e : Eng) : Bool :=
  let w := s.tw t
  s.enginesOn t || (decide (w.run = .saving) && (Tab.has w.plans e.who || (decide (e = .dom) && w.begun.contains e.num)))

/-- The first engine-origin exception ends the step where no handler can ever take it (R298). -/
def State.pendEngine (s : State) (t : Nat) (f : EngFault) : State :=
  let k := (s.tw t).core
  if !k.vectorsOn && !k.handlerRuns then s.programError t
  else s.modTw t (fun w => { w with core := { w.core with engPend := w.core.engPend ++ [f] } })

/-- A segment fault that an engine finds stops it (R297). -/
def State.engSegFault (s : State) (t : Nat) (e : Eng) (sub off : Nat) : State :=
  (s.modTw t (fun w => w.setStop e .segFault)).pendEngine t { engine := e.num + 1, sub := sub, off := off }

/-- An engine error stops the engine's queue and raises its interrupt (R330). -/
def State.engError (s : State) (t : Nat) (e : Eng) (src : Nat) : State :=
  (s.modTw t (fun w => (w.setStop e .error).setBegun e false)).engineError t src

/-- An access of an engine does not go through (R32, R216, R297, R387, R404, R566). -/
def State.engFail (s : State) (t : Nat) (e : Eng) (who : Nat) (acc : Access) (x : AccErr) : State :=
  match x with
  | .seg sub off => s.engSegFault t e sub off
  | .xlat kind level addr adv dva =>
    (s.raiseFault t who kind acc level addr adv dva).modTw t (fun w => w.setStop e .xlat)
  | .migWait => s
  | .walkErr host => s.walkFails (.tower (BitVec.ofNat 7 t)) host
  | .hole fpa dva => s.holeFault t who acc fpa dva false

/-- A request of an instruction under way now lies in a hole, since the Tower whose store it is has been retired: it was
outstanding then if it had been issued (R33). -/
def State.lostReq (s : State) (t who : Nat) (reqs : List Req) : Option (Bool × Req) :=
  let l := s.outside t reqs
  let n := Tab.get 0 (s.tw t).gates who
  ((List.range l.length).zip l).findSome? (fun e => if s.place e.2.fpa = .hole then some (decide (e.1 < n), e.2) else none)

/-- The access of a lost request is a hole's, with PART where it was outstanding (R32, R33). -/
def State.reqHole (s : State) (t who : Nat) (e : Bool × Req) : State :=
  s.holeFault t who (if e.2.write then .write else .read) e.2.fpa e.2.dva e.1

/-- Reads pieces for an instruction; none while an answer is awaited, or where an error response strikes the step. -/
def State.engRead (s : State) (t who : Nat) (ps : List Piece) : Option (List Byte) × State :=
  match s.lostReq t who (readReqs ps) with
  | some e => (none, s.reqHole t who e)
  | none => match s.gateKeep t who (readReqs ps) with
    | (.blocked, s) => (none, s)
    | (.ready b, s) => match s.readLocal t ps with
      | (true, s) => (none, s.strike t)
      | (false, s) => (some (s.gather b ps), s)

/-- Writes pieces for an instruction whose earlier requests were `before`; completes when every write is accepted. -/
def State.engWrite (s : State) (t who : Nat) (before : List Req) (ps : List Piece) (bs : List Byte) : ERes :=
  let reqs := before ++ writeReqs ps bs
  match s.lostReq t who reqs with
  | some e => (false, s.reqHole t who e)
  | none => match s.gate t who reqs with
    | (.blocked, s) => (false, s)
    | (.ready _, s) =>
      let (e, s) := s.scatter t ps bs
      if e then (false, s.strike t) else (true, s)

/-- A range an instruction reaches: segment, kind of access, offset, length. -/
structure Range where
  seg : Seg
  acc : Access
  off : Nat
  len : Nat
deriving DecidableEq, Repr

/-- Resolves ranges in order (R387: whole ranges before any data moves). -/
def State.resolveAll (s : State) (t tlb : Nat) :
    List Range → List (List Piece) → Except (Access × AccErr) (List (List Piece)) × State
  | [], done => (.ok done.reverse, s)
  | r :: rs, done =>
    if r.len = 0 then s.resolveAll t tlb rs ([] :: done)
    else match s.resolve t tlb r.seg r.acc r.off r.len with
      | (.error x, s) => (.error (r.acc, x), s)
      | (.ok ps, s) => s.resolveAll t tlb rs (ps :: done)

/-- Number of a tile byte in `Tower.tiles` (R205). -/
def tileAt (t row byte : Nat) : Nat := t * 32768 + 256 * row + byte

/-- Bytes of a tile from a byte offset. -/
def Tower.tileBytes (w : Tower) (t o n : Nat) : List Byte := Tab.getAll 0 w.tiles (t * 32768 + o) n

/-- Writes bytes of a tile at a byte offset; any write sets the in-use flag (R219). -/
def State.tileWrite (s : State) (t n o : Nat) (bs : List Byte) : State :=
  if bs = [] then s else
  let s := s.modTw t (fun w => { w with tiles := Tab.setAll w.tiles (n * 32768 + o) bs })
  let a := Reg.twrTstat t
  s.wr a (setBit (s.rd a) (16 + n) true)

/-- Elements of a bit width packed in bytes, little-endian (R78). -/
def elems (bits : Nat) (bs : List Byte) (n : Nat) : List Nat :=
  if bits = 4 then (List.range n).map (fun i => nfld ((bs[i / 2]?).getD 0).toNat (4 * (i % 2) + 3) (4 * (i % 2)))
  else (List.range n).map (fun i => leAt bs (i * (bits / 8)) (bits / 8))

/-- Bytes that hold `n` elements of a bit width. -/
def elemBytes (bits n : Nat) : Nat := ceilDiv (n * bits) 8

/-- Elements packed over the bytes that were there; an odd int4 tensor leaves the last high nibble (R78). -/
def packElems (bits : Nat) (old : List Byte) (xs : List Nat) : List Byte :=
  if bits = 4 then
    (List.range (ceilDiv xs.length 2)).map (fun i =>
      let lo := (xs[2 * i]?).getD 0
      let hi := (xs[2 * i + 1]?).getD (((old[i]?).getD 0).toNat / 16)
      BitVec.ofNat 8 (lo % 16 + hi % 16 * 16))
  else xs.flatMap (fun x => leBytes (bits / 8) x)

end Sys2Proof.Machine
end

