-- ==== Sys2Proof/Machine/BitSpace.lean ====
section
/-! DEFINITION. The bit space: what an address names, and reads and writes of local and die-shared bits (R286–R288). -/

namespace Sys2Proof.Machine

/-- What a bit address names. -/
inductive BitPlace where
  | localBit (i : Nat)
  /-- die-shared bit by die × 65,536 + number -/
  | shared (k : Nat)
  /-- barrier bit: 0x000 + s is the phase bit of slot s, 0x200 + s its error bit (R428) -/
  | barrier (n : Nat)
  | none
deriving DecidableEq, Repr

/-- The bit that a core's address names (R286). A Keep core has no local bits. -/
def bitPlace (c : CoreId) (k : Core) (a : Nat) : BitPlace :=
  let i := a % 65536
  let base := fld k.bwin 25 16 * 64
  let inWin := decide (i < fld k.bwin 10 0 * 64) && decide (base + i < 65536)
  match a / 65536 with
  | 0 => match c with
    | .tower _ => .localBit i
    | .keep _ => .none
  | 1 => if inWin then .shared (coreDie c * 65536 + base + i) else .none
  | 2 => if inWin then .shared ((1 - coreDie c) * 65536 + base + i) else .none
  | 3 => if i < 0x400 then .barrier i else .none
  | _ => .none

/-- Value of a local or shared bit. -/
def State.bitGet (s : State) (c : CoreId) (p : BitPlace) : Bool := match p, c with
  | .localBit i, .tower t => Tab.get false (s.tw t.toNat).localBits i
  | .shared k, _ => Tab.get false s.shared k
  | _, _ => false

/-- Writes a local or shared bit. -/
def State.bitPut (s : State) (c : CoreId) (p : BitPlace) (v : Bool) : State := match p, c with
  | .localBit i, .tower t => s.modTw t.toNat (fun w => { w with localBits := Tab.set w.localBits i v })
  | .shared k, _ => { s with shared := Tab.set s.shared k v }
  | _, _ => s

end Sys2Proof.Machine
end

