-- ==== Sys2Proof/Machine/Lane.lean ====
section
/-! DEFINITION. Dome lanes: classes, terms, exact addition, the single rounding of a drain, and the transfer format
(R110–R117, R124, R128, R129, R133–R135). -/

namespace Sys2Proof.Machine

/-- A lane class: exponent L of its unit, width W, array side and operand format (R110, R144). -/
structure LaneClass where
  unit : Int
  width : Nat
  side : Nat
  fmt : Fmt
deriving DecidableEq, Repr

/-- The class of a code; codes 6 and 7 name none (R110). -/
def laneClass (c : Nat) : Option LaneClass := match c with
  | 0 => some ⟨-18, 64, 128, .pip8a⟩
  | 1 => some ⟨-32, 96, 128, .pip8b⟩
  | 2 => some ⟨-78, 192, 64, .pip16⟩
  | 3 => some ⟨0, 64, 128, .int8⟩
  | 4 => some ⟨-298, 640, 42, .b32⟩
  | 5 => some ⟨-2148, 4288, 18, .b64⟩
  | _ => none

/-- The lane of a finite value in units of the class. -/
def Lane.ofInt (i : Int) : Lane := ⟨.finite, decide (i < 0), false, i.natAbs⟩

/-- Signed magnitude. -/
def Lane.int (x : Lane) : Int := signed x.neg x.mag

/-- Adds a term to a lane whose largest magnitude is `2^w − 1` (R115). -/
def Lane.add (w : Nat) (x t : Lane) : Lane :=
  let p := x.nvp || t.nvp
  let bad : Lane := ⟨.nan, false, true, 0⟩
  match x.st, t.st with
  | .nan, _ => ⟨.nan, false, p, 0⟩
  | _, .nan => ⟨.nan, false, p, 0⟩
  | .inf, .inf => if x.neg = t.neg then ⟨.inf, x.neg, p, 0⟩ else bad
  | .inf, .exhausted => bad
  | .exhausted, .inf => bad
  | .inf, .finite => ⟨.inf, x.neg, p, 0⟩
  | .finite, .inf => ⟨.inf, t.neg, p, 0⟩
  | .exhausted, .exhausted => if x.neg = t.neg then ⟨.exhausted, x.neg, p, 0⟩ else bad
  | .exhausted, .finite => ⟨.exhausted, x.neg, p, 0⟩
  | .finite, .exhausted => ⟨.exhausted, t.neg, p, 0⟩
  | .finite, .finite =>
    let r := x.int + t.int
    if 2 ^ w ≤ r.natAbs then ⟨.exhausted, decide (r < 0), p, 0⟩
    else if r = 0 then ⟨.finite, x.mag = 0 ∧ t.mag = 0 ∧ x.neg ∧ t.neg, p, 0⟩
    else ⟨.finite, decide (r < 0), p, r.natAbs⟩

/-- The product of two operands as a term in units of 2^unit (R114). -/
def laneProduct (unit : Int) (a b : Val) : Lane :=
  if a.isNan || b.isNan then ⟨.nan, false, a.isSig || b.isSig, 0⟩
  else
    let s := a.neg != b.neg
    match a, b with
    | .fin _ m e, .fin _ n f => ⟨.finite, s, false, m * n * 2 ^ (e + f - unit).toNat⟩
    | x, y => if x.isZero || y.isZero then ⟨.nan, false, true, 0⟩ else ⟨.inf, s, false, 0⟩

/-- A width that no sum reaches: group sums and reductions do not exhaust (R117, R185). -/
def openWidth : Nat := 20000

/-- An exact sum of terms under R115, from −0 (R116). -/
def laneSum (ts : List Lane) : Lane := ts.foldl (Lane.add openWidth) Lane.zero

/-- A preload element as a term, with the Dome's flags (R124). -/
def preloadTerm (c : LaneClass) (rm : Rm) (v : Val) : Lane × Fl :=
  match v with
  | .nan _ sig _ => (⟨.nan, false, sig, 0⟩, { nv := sig })
  | .inf n => (⟨.inf, n, false, 0⟩, {})
  | .fin n m e =>
    let (k, inx) := roundAt rm n m e false c.unit
    if 2 ^ c.width ≤ k then (⟨.exhausted, n, false, 0⟩, { ofl := true, nx := true })
    else (⟨.finite, n, false, k⟩, { nx := inx })

/-- A lane rounded once to a floating format (R96, R128, R129). -/
def Lane.toFloat (x : Lane) (F : FFmt) (rm : Rm) (pi : Bool) (unit : Int) : Nat × Fl :=
  let r : Nat × Fl := match x.st with
    | .nan => (F.dnan, {})
    | .inf => match F.kind with
      | .pip8 => (F.join x.neg F.maxEnc, { sat := 1 })
      | _ => (F.join x.neg F.infEnc, {})
    | .exhausted => F.overflow rm pi x.neg
    | .finite => F.round rm pi x.neg x.mag unit
  (r.1, { r.2 with nv := r.2.nv || x.nvp })

/-- A lane rounded once to an integer format (R104, R129). -/
def Lane.toIntFmt (x : Lane) (bits : Nat) (rm : Rm) (unit : Int) : Nat × Fl :=
  let lim := fun n : Bool => (trunc bits (if n then intMin bits true else intMax bits true), ({ nv := true, sat := 1 } : Fl))
  let r : Nat × Fl := match x.st with
    | .nan => (0, { nv := true })
    | .inf => lim x.neg
    | .exhausted => lim x.neg
    | .finite =>
      let (i, f) := toInt bits true rm (.fin x.neg x.mag unit)
      (trunc bits i, f)
  (r.1, { r.2 with nv := r.2.nv || x.nvp })

/-- A lane rounded once to a format. -/
def Lane.toFmt (x : Lane) (k : FmtKind) (rm : Rm) (pi : Bool) (unit : Int) : Nat × Fl := match k with
  | .int I => x.toIntFmt I.bits rm unit
  | .float F | .cplx F => x.toFloat F rm pi unit

/-- 64-bit words of a class (R133). -/
def LaneClass.words (c : LaneClass) : Nat := ceilDiv c.width 64

/-- Index of the lowest word that is not zero, among `n`. -/
def lowWord : Nat → Nat → Nat
  | 0, _ => 0
  | n + 1, m => if m % 2 ^ 64 = 0 then 1 + lowWord n (m / 2 ^ 64) else 0

/-- The record of a lane (R133, R134). The sign of a NaN lane is open (log entry 25). LOW of a record that carries no word
is 0: R133 gives LOW as the index of the first word carried (DESIGN CHOICE, log entry 45). -/
def Lane.record (x : Lane) : List Byte :=
  let st := match x.st with | .finite => 0 | .exhausted => 1 | .inf => 2 | .nan => 3
  let sign := if x.st = .nan then Config.nanLaneSign else x.neg
  let fin := decide (x.st = .finite) && decide (x.mag ≠ 0)
  let low := if fin then lowWord 70 x.mag else 0
  let cnt := if fin then ceilDiv (bitLen x.mag) 64 - low else 0
  leBytes 8 (st * 2 ^ 62 + b2n sign * 2 ^ 61 + b2n x.nvp * 2 ^ 60 + low * 256 + cnt)
    ++ leBytes (8 * cnt) (x.mag / 2 ^ (64 * low))

/-- The 32-byte header of a transfer block (R134). -/
def blockHeader (cls m n bytes : Nat) : List Byte :=
  leBytes 1 cls ++ [0] ++ leBytes 2 m ++ leBytes 2 n ++ leBytes 2 0 ++ leBytes 4 bytes ++ leBytes 20 0

/-- The lane of a record read at an offset, and the offset after it; none where R135 refuses the record. -/
def recordAt (c : LaneClass) (bs : List Byte) (o : Nat) : Option (Lane × Nat) :=
  if bs.length < o + 8 then none else
  let h := leAt bs o 8
  let cnt := nfld h 7 0
  let low := nfld h 15 8
  let st : LaneState := match nfld h 63 62 with | 0 => .finite | 1 => .exhausted | 2 => .inf | _ => .nan
  if nfld h 59 16 ≠ 0 ∨ c.words < low + cnt ∨ (st ≠ .finite ∧ cnt ≠ 0) ∨ bs.length < o + 8 + 8 * cnt then none
  else
    let mag := leAt bs (o + 8) (8 * cnt) * 2 ^ (64 * low)
    some (⟨st, if st = .nan then false else decide (nfld h 61 61 = 1), decide (nfld h 60 60 = 1), mag⟩, o + 8 + 8 * cnt)

/-- `n` records from an offset, and the offset after them. -/
def recordsAt (c : LaneClass) (bs : List Byte) : Nat → Nat → Option (List Lane × Nat)
  | 0, o => some ([], o)
  | n + 1, o => match recordAt c bs o with
    | none => none
    | some (x, o') => match recordsAt c bs n o' with
      | none => none
      | some (xs, e) => some (x :: xs, e)

/-- The lanes of a transfer block of a class and shape; none where R135 refuses it. -/
def blockLanes (cls m n : Nat) (bs : List Byte) : Option (List Lane) :=
  match laneClass cls with
  | none => none
  | some c =>
    let len := leAt bs 8 4
    if leAt bs 0 1 ≠ cls ∨ leAt bs 1 1 ≠ 0 ∨ leAt bs 2 2 ≠ m ∨ leAt bs 4 2 ≠ n ∨ leAt bs 6 2 ≠ 0
        ∨ leAt bs 12 20 ≠ 0 ∨ len < 32 then none
    else match recordsAt c (bs.take len) (m * n) 32 with
      | some (xs, e) => if e = len then some xs else none
      | none => none

/-- The transfer block of lanes (R134). -/
def laneBlock (cls m n : Nat) (xs : List Lane) : List Byte :=
  let body := xs.flatMap Lane.record
  blockHeader cls m n (32 + body.length) ++ body

end Sys2Proof.Machine
end

