-- ==== Sys2Proof/Machine/Crc.lean ====
section
/-! DEFINITION. The CRC-32 of records and frames and the CRC-16 of roll frames (R41, R63, R411, R521). -/

namespace Sys2Proof.Machine

/-- One bit through a reflected CRC register. -/
def crcBit (poly r : Nat) (b : Bool) : Nat :=
  if (r % 2 = 1) = (b = true) then r / 2 else (r / 2) ^^^ poly

/-- `n` bits of a number, lowest first. -/
def crcBits (poly : Nat) : Nat → Nat → Nat → Nat
  | 0, _, r => r
  | n + 1, v, r => crcBits poly n (v / 2) (crcBit poly r (decide (v % 2 = 1)))

/-- CRC-32 with the IEEE 802.3 polynomial (R63). -/
def crc32 (bs : List Byte) : Nat :=
  (bs.foldl (fun r b => crcBits 0xEDB88320 8 b.toNat r) 0xFFFFFFFF) ^^^ 0xFFFFFFFF

/-- CRC-16 of a roll frame: the 8 bits of the hop count, then the 64 bits of the roll number, lowest first (R41; log
entry 29). -/
def crc16 (hop roll : Nat) : Nat := crcBits 0x8408 64 roll (crcBits 0x8408 8 hop 0xFFFF)

/-- A record of 60 bytes with its CRC in the last four (R63, R521, R538, R550). -/
def withCrc (bs : List Byte) : List Byte :=
  let b := padTo 60 bs
  b ++ leBytes 4 (crc32 b)

/-- The last four bytes of a 64-byte record hold its CRC. -/
def crcGood (bs : List Byte) : Bool := decide (leAt bs 60 4 = crc32 (bs.take 60))

end Sys2Proof.Machine
end

