-- ==== Sys2Proof/Machine/Encode.lean ====
section
/-! DEFINITION. The 32-bit words of the Nanona instructions (R264 and the encoding tables of each group): what `eaddr`
holds after an illegal instruction and what `VEC_FAULT.INSN` holds. Commands that are no instruction have word 0. -/

namespace Sys2Proof.Machine

/-- A word from its major opcode and its fields, each at its lowest bit. -/
def enc (major : Nat) (fs : List (Nat × Nat)) : Word :=
  BitVec.ofNat 32 (fs.foldl (fun w f => w + f.1 * 2 ^ f.2) (major * 2 ^ 26))

def encAlu (d a b : GReg) (f : Bool) (func : Nat) : Word :=
  enc 1 [(d.toNat, 21), (a.toNat, 16), (b.toNat, 11), (b2n f, 10), (func, 0)]
def encFp (d a b rm : Nat) (dbl : Bool) (func : Nat) : Word :=
  enc 16 [(d, 21), (a, 16), (b, 11), (rm, 8), (b2n dbl, 7), (func, 0)]
def encQ (d a b : GReg) (w : Bool) (lf : R3) (func : Nat) : Word :=
  enc 20 [(d.toNat, 21), (a.toNat, 16), (b.toNat, 11), (b2n w, 10), (lf.toNat, 6), (func, 0)]
def encV (o : VArith) (func : Nat) : Word :=
  enc 56 [(o.d.toNat, 21), (o.a.toNat, 16), (o.b.toNat, 11), (b2n o.m, 10), (o.k.toNat, 7), (b2n o.sc, 6), (func, 0)]
def encVM (o : VMem) (func : Nat) : Word :=
  enc 57 [(o.v.toNat, 21), (o.s.toNat, 18), (o.a.toNat, 13), (o.b.toNat, 8), (b2n o.m, 7), (o.k.toNat, 4), (func, 0)]

/-- The word of an instruction. -/
def encode (i : Instr) : Word :=
  match i with
  | .add _ d a b f => encAlu d a b f 0
  | .sub _ d a b f => encAlu d a b f 1
  | .and _ d a b f => encAlu d a b f 2
  | .or _ d a b f => encAlu d a b f 3
  | .xor _ d a b f => encAlu d a b f 4
  | .sll _ d a b f => encAlu d a b f 5
  | .srl _ d a b f => encAlu d a b f 6
  | .sra _ d a b f => encAlu d a b f 7
  | .mul _ d a b f => encAlu d a b f 8
  | .mulh _ d a b f => encAlu d a b f 9
  | .mulhu _ d a b f => encAlu d a b f 10
  | .div _ d a b f => encAlu d a b f 11
  | .divu _ d a b f => encAlu d a b f 12
  | .rem _ d a b f => encAlu d a b f 13
  | .remu _ d a b f => encAlu d a b f 14
  | .min _ d a b f => encAlu d a b f 15
  | .max _ d a b f => encAlu d a b f 16
  | .minu _ d a b f => encAlu d a b f 17
  | .maxu _ d a b f => encAlu d a b f 18
  | .adc _ d a b f => encAlu d a b f 19
  | .sbc _ d a b f => encAlu d a b f 20
  | .clz _ d a f => encAlu d a 0 f 21
  | .ctz _ d a f => encAlu d a 0 f 22
  | .popc _ d a f => encAlu d a 0 f 23
  | .addi _ d a imm => enc 2 [(d.toNat, 21), (a.toNat, 16), (imm.toNat, 0)]
  | .addiF _ d a imm => enc 3 [(d.toNat, 21), (a.toNat, 16), (imm.toNat, 0)]
  | .andi _ d a imm => enc 4 [(d.toNat, 21), (a.toNat, 16), (imm.toNat, 0)]
  | .ori _ d a imm => enc 5 [(d.toNat, 21), (a.toNat, 16), (imm.toNat, 0)]
  | .xori _ d a imm => enc 6 [(d.toNat, 21), (a.toNat, 16), (imm.toNat, 0)]
  | .slli _ d a n => enc 7 [(d.toNat, 21), (a.toNat, 16), (0, 14), (n.toNat, 0)]
  | .srli _ d a n => enc 7 [(d.toNat, 21), (a.toNat, 16), (1, 14), (n.toNat, 0)]
  | .srai _ d a n => enc 7 [(d.toNat, 21), (a.toNat, 16), (2, 14), (n.toNat, 0)]
  | .kset _ d imm h => enc 8 [(d.toNat, 21), (0, 20), (h.toNat, 18), (imm.toNat, 0)]
  | .kins _ d imm h => enc 8 [(d.toNat, 21), (1, 20), (h.toNat, 18), (imm.toNat, 0)]
  | .ld _ d s a size off _ => enc 9 [(d.toNat, 21), (s.toNat, 18), (a.toNat, 13), (size.toNat, 10), (off.toNat, 0)]
  | .st _ d s a size off => enc 10 [(d.toNat, 21), (s.toNat, 18), (a.toNat, 13), (size.toNat, 10), (off.toNat, 0)]
  | .fld _ d s a size off _ => enc 11 [(d.toNat, 21), (s.toNat, 18), (a.toNat, 13), (size.toNat, 10), (off.toNat, 0)]
  | .fst _ d s a size off => enc 12 [(d.toNat, 21), (s.toNat, 18), (a.toNat, 13), (size.toNat, 10), (off.toNat, 0)]
  | .bCond _ cond off => enc 13 [(cond.toNat, 22), (off.toNat, 0)]
  | .jal _ off => enc 14 [(off.toNat, 0)]
  | .j _ off => enc 15 [(off.toNat, 0)]
  | .fadd _ d a b rm dbl => encFp d.toNat a.toNat b.toNat (rmCode rm) dbl 0
  | .fsub _ d a b rm dbl => encFp d.toNat a.toNat b.toNat (rmCode rm) dbl 1
  | .fmul _ d a b rm dbl => encFp d.toNat a.toNat b.toNat (rmCode rm) dbl 2
  | .fdiv _ d a b rm dbl => encFp d.toNat a.toNat b.toNat (rmCode rm) dbl 3
  | .fsqrt _ d a rm dbl => encFp d.toNat a.toNat 0 (rmCode rm) dbl 4
  | .frem _ d a b dbl => encFp d.toNat a.toNat b.toNat 0 dbl 5
  | .fmin _ d a b dbl => encFp d.toNat a.toNat b.toNat 0 dbl 6
  | .fmax _ d a b dbl => encFp d.toNat a.toNat b.toNat 0 dbl 7
  | .fminnum _ d a b dbl => encFp d.toNat a.toNat b.toNat 0 dbl 8
  | .fmaxnum _ d a b dbl => encFp d.toNat a.toNat b.toNat 0 dbl 9
  | .frint _ d a rm dbl => encFp d.toNat a.toNat 0 (rmCode rm) dbl 10
  | .frintx _ d a rm dbl => encFp d.toNat a.toNat 0 (rmCode rm) dbl 11
  | .fnextup _ d a dbl => encFp d.toNat a.toNat 0 0 dbl 12
  | .fnextdn _ d a dbl => encFp d.toNat a.toNat 0 0 dbl 13
  | .fscaleb _ d a b rm dbl => encFp d.toNat a.toNat b.toNat (rmCode rm) dbl 14
  | .flogb _ d a dbl => encFp d.toNat a.toNat 0 0 dbl 15
  | .fneg _ d a dbl => encFp d.toNat a.toNat 0 0 dbl 16
  | .fabs _ d a dbl => encFp d.toNat a.toNat 0 0 dbl 17
  | .fsgnj _ d a b dbl => encFp d.toNat a.toNat b.toNat 0 dbl 18
  | .fclass _ d a dbl => encFp d.toNat a.toNat 0 0 dbl 19
  | .fcmp _ a b dbl => encFp 0 a.toNat b.toNat 0 dbl 20
  | .fcmpe _ a b dbl => encFp 0 a.toNat b.toNat 0 dbl 21
  | .ftot _ d a b dbl => encFp d.toNat a.toNat b.toNat 0 dbl 22
  | .ftotm _ d a b dbl => encFp d.toNat a.toNat b.toNat 0 dbl 23
  | .fcvtFf _ d a rm dbl => encFp d.toNat a.toNat 0 (rmCode rm) dbl 24
  | .fcvtIf _ d a rm dbl x sgn w64 => encFp d.toNat a.toNat (4 * b2n x + 2 * b2n sgn + b2n w64) (rmCode rm) dbl 0x19
  | .fcvtFi _ d a rm dbl sgn w64 => encFp d.toNat a.toNat (2 * b2n sgn + b2n w64) (rmCode rm) dbl 0x1A
  | .fusedMulAdd _ d a b cc rm dbl => enc 17 [(d.toNat, 21), (a.toNat, 16), (b.toNat, 11), (cc.toNat, 6), (b2n dbl, 5), (rmCode rm, 2), (0, 0)]
  | .fusedMulSub _ d a b cc rm dbl => enc 17 [(d.toNat, 21), (a.toNat, 16), (b.toNat, 11), (cc.toNat, 6), (b2n dbl, 5), (rmCode rm, 2), (1, 0)]
  | .fusedNegMulAdd _ d a b cc rm dbl => enc 17 [(d.toNat, 21), (a.toNat, 16), (b.toNat, 11), (cc.toNat, 6), (b2n dbl, 5), (rmCode rm, 2), (2, 0)]
  | .fusedNegMulSub _ d a b cc rm dbl => enc 17 [(d.toNat, 21), (a.toNat, 16), (b.toNat, 11), (cc.toNat, 6), (b2n dbl, 5), (rmCode rm, 2), (3, 0)]
  | .jalr _ d a => enc 18 [(d.toNat, 21), (a.toNat, 16)]
  | .mvGf _ d a => enc 19 [(d.toNat, 21), (a.toNat, 16), (0, 0)]
  | .mvFg _ d a => enc 19 [(d.toNat, 21), (a.toNat, 16), (1, 0)]
  | .mfcs _ d n => enc 19 [(d.toNat, 21), (n.toNat, 11), (2, 0)]
  | .mtcs _ n a => enc 19 [(a.toNat, 16), (n.toNat, 11), (3, 0)]
  | .qadd _ d a b w lf => encQ d a b w lf 0
  | .qsub _ d a b w lf => encQ d a b w lf 1
  | .qmul _ d a b w lf => encQ d a b w lf 2
  | .qfma _ d a b w lf => encQ d a b w lf 3
  | .qmin _ d a b w lf => encQ d a b w lf 4
  | .qmax _ d a b w lf => encQ d a b w lf 5
  | .qand _ d a b w lf => encQ d a b w lf 6
  | .qor _ d a b w lf => encQ d a b w lf 7
  | .qxor _ d a b w lf => encQ d a b w lf 8
  | .qcmul _ d a b w lf => encQ d a b w lf 9
  | .qcmac _ d a b w lf => encQ d a b w lf 10
  | .qconj _ d a w lf => encQ d a 0 w lf 11
  | .qcmpeq _ d a b w lf => encQ d a b w lf 12
  | .qcmplt _ d a b w lf => encQ d a b w lf 13
  | .qcmple _ d a b w lf => encQ d a b w lf 14
  | .qcmpun _ d a b w lf => encQ d a b w lf 15
  | .qdup _ d a w lf => encQ d a 0 w lf 16
  | .qswap _ d a w lf => encQ d a 0 w lf 17
  | .bset _ a off => enc 21 [(0, 23), (0, 18), (a.toNat, 13), (off.toNat, 0)]
  | .bclr _ a off => enc 21 [(1, 23), (0, 18), (a.toNat, 13), (off.toNat, 0)]
  | .btst _ d a off => enc 21 [(2, 23), (d.toNat, 18), (a.toNat, 13), (off.toNat, 0)]
  | .btas _ d a off => enc 21 [(3, 23), (d.toNat, 18), (a.toNat, 13), (off.toNat, 0)]
  | .bwait0 _ a off tm => enc 21 [(4, 23), (tm.toNat, 18), (a.toNat, 13), (off.toNat, 0)]
  | .bwait1 _ a off tm => enc 21 [(5, 23), (tm.toNat, 18), (a.toNat, 13), (off.toNat, 0)]
  | .crr _ d a off => enc 22 [(0, 25), (d.toNat, 20), (a.toNat, 15), (off.toNat, 0)]
  | .crw _ a b off => enc 22 [(1, 25), (b.toNat, 20), (a.toNat, 15), (off.toNat, 0)]
  | .sld _ n m a off => enc 23 [(0, 24), (n.toNat, 21), (m.toNat, 18), (a.toNat, 13), (off.toNat, 0)]
  | .sst _ m a off n => enc 23 [(1, 24), (n.toNat, 21), (m.toNat, 18), (a.toNat, 13), (off.toNat, 0)]
  | .srd _ d n part => enc 23 [(2, 24), (n.toNat, 21), (d.toNat, 8), (part.toNat, 0)]
  | .cwb _ m a _ => enc 23 [(3, 24), (m.toNat, 18), (a.toNat, 13), (0, 0)]
  | .cinv _ m a => enc 23 [(3, 24), (m.toNat, 18), (a.toNat, 13), (1, 0)]
  | .cwbi _ m a => enc 23 [(3, 24), (m.toNat, 18), (a.toNat, 13), (2, 0)]
  | .cpf _ m a => enc 23 [(3, 24), (m.toNat, 18), (a.toNat, 13), (3, 0)]
  | .fence _ => enc 24 []
  | .isync _ => enc 24 [(1, 22)]
  | .waitQ _ mask => enc 24 [(2, 22), (mask.toNat, 0)]
  | .qsync _ dst mask => enc 24 [(3, 22), (dst.toNat, 6), (mask.toNat, 0)]
  | .trap _ imm => enc 25 [(imm.toNat, 0)]
  | .eret _ => enc 25 [(1, 22)]
  | .done _ => enc 25 [(2, 22)]
  | .halt _ => enc 25 [(3, 22)]
  | .nop _ => enc 25 [(4, 22)]
  | .illegalInstruction _ w => w
  | .dmCfg _ _ d cls m n => enc 52 [(0, 22), (d.toNat, 19), (cls.toNat, 16), (m.toNat, 8), (n.toNat, 0)]
  | .dmFree _ _ d => enc 52 [(1, 22), (d.toNat, 19)]
  | .dmClr _ _ d => enc 52 [(2, 22), (d.toNat, 19)]
  | .dmLd _ _ d s a fmt rm src tile => enc 52 [(3, 22), (d.toNat, 19), (s.toNat, 16), (a.toNat, 11), (fmtCode fmt, 7), (rmCode rm, 4), (b2n src, 3), (tile.toNat, 0)]
  | .dmLdadd _ _ d s a fmt rm src tile => enc 52 [(4, 22), (d.toNat, 19), (s.toNat, 16), (a.toNat, 11), (fmtCode fmt, 7), (rmCode rm, 4), (b2n src, 3), (tile.toNat, 0)]
  | .dmDrain _ _ d s gd gc => enc 52 [(5, 22), (d.toNat, 19), (s.toNat, 16), (gd.toNat, 11), (gc.toNat, 6)]
  | .dmXout _ _ d s a => enc 52 [(6, 22), (d.toNat, 19), (s.toNat, 16), (a.toNat, 11)]
  | .dmXadd _ _ d s a => enc 52 [(7, 22), (d.toNat, 19), (s.toNat, 16), (a.toNat, 11)]
  | .spCfg _ _ c => enc 53 [(0, 22), (c.toNat, 11)]
  | .spLds _ _ ts k n => enc 53 [(1, 22), (ts.toNat, 16), (k.toNat, 9), (n.toNat, 2)]
  | .spLdsm _ _ s a d => enc 53 [(2, 22), (s.toNat, 16), (a.toNat, 11), (d.toNat, 6)]
  | .spMm _ _ d ts r swap => enc 53 [(3, 22), (d.toNat, 19), (ts.toNat, 16), (r.toNat, 11), (b2n swap, 10)]
  | .spDrop _ _ => enc 53 [(4, 22)]
  | .tuPtr _ _ p tile s a fmt => enc 54 [(0, 22), (p.toNat, 20), (b2n tile, 19), (s.toNat, 16), (a.toNat, 11), (fmtCode fmt, 7)]
  | .tuProg _ _ slot s a => enc 54 [(1, 22), (slot.toNat, 16), (a.toNat, 11), (s.toNat, 8)]
  | .tuRun _ _ slot count hist => enc 54 [(2, 22), (b2n hist, 21), (slot.toNat, 16), (count.toNat, 0)]
  | .tld _ _ d s a r => enc 55 [(0, 22), (d.toNat, 19), (s.toNat, 16), (a.toNat, 11), (r.toNat, 6)]
  | .tst _ _ s a tt r => enc 55 [(1, 22), (tt.toNat, 19), (s.toNat, 16), (a.toNat, 11), (r.toNat, 6)]
  | .tmv _ _ d ts r => enc 55 [(2, 22), (d.toNat, 19), (ts.toNat, 16), (r.toNat, 11)]
  | .tmvVt _ _ d v h => enc 55 [(3, 22), (d.toNat, 19), (v.toNat, 11), (b2n h, 10)]
  | .tmvTv _ _ v ts h => enc 55 [(4, 22), (ts.toNat, 19), (v.toNat, 11), (b2n h, 10)]
  | .tclr _ _ d => enc 55 [(5, 22), (d.toNat, 19)]
  | .vspan _ d a fmt => enc 58 [(d.toNat, 21), (a.toNat, 16), (fmt.toNat, 12), (0, 0)]
  | .vadd _ _ o => encV o 0
  | .vsub _ _ o => encV o 1
  | .vmul _ _ o => encV o 2
  | .vdiv _ _ o => encV o 3
  | .vsqrt _ _ o => encV o 4
  | .vmin _ _ o => encV o 5
  | .vmax _ _ o => encV o 6
  | .vfma _ _ o => encV o 7
  | .vfms _ _ o => encV o 8
  | .vabs _ _ o => encV o 9
  | .vneg _ _ o => encV o 10
  | .vand _ _ o => encV o 11
  | .vor _ _ o => encV o 12
  | .vxor _ _ o => encV o 13
  | .vsll _ _ o => encV o 14
  | .vsrl _ _ o => encV o 15
  | .vsra _ _ o => encV o 16
  | .vmv _ _ o => encV o 17
  | .vmerge _ _ o => encV o 18
  | .vcmul _ _ o => encV o 19
  | .vcmac _ _ o => encV o 20
  | .vconj _ _ o => encV o 21
  | .vredsum _ _ o => encV o 22
  | .vredmax _ _ o => encV o 23
  | .vredmin _ _ o => encV o 24
  | .vcmpeq _ _ o => encV o 32
  | .vcmplt _ _ o => encV o 33
  | .vcmple _ _ o => encV o 34
  | .vcmpun _ _ o => encV o 35
  | .vwmul _ _ o => encV o 40
  | .vwmacc _ _ o => encV o 41
  | .vwdot _ _ o => encV o 42
  | .vcvt _ _ d a fmt rm m k => enc 59 [(d.toNat, 21), (a.toNat, 16), (fmtCode fmt, 12), (rmCode rm, 9), (b2n m, 8), (k.toNat, 5)]
  | .vld _ _ o => encVM o 0
  | .vlds _ _ o => encVM o 1
  | .vldx _ _ o => encVM o 2
  | .vst _ _ o => encVM o 4
  | .vsts _ _ o => encVM o 5
  | .vstx _ _ o => encVM o 6
  | .vprobe _ _ form o => encVM o (match form with | .unit => 8 | .strided => 9 | .indexed => 10)
  | .vmand _ _ d a b => enc 58 [(d.toNat, 21), (a.toNat, 16), (b.toNat, 11), (2, 0)]
  | .vmor _ _ d a b => enc 58 [(d.toNat, 21), (a.toNat, 16), (b.toNat, 11), (3, 0)]
  | .vmxor _ _ d a b => enc 58 [(d.toNat, 21), (a.toNat, 16), (b.toNat, 11), (4, 0)]
  | .vmnot _ _ d a => enc 58 [(d.toNat, 21), (a.toNat, 16), (5, 0)]
  | .vmpopc _ d a => enc 58 [(d.toNat, 21), (a.toNat, 16), (6, 0)]
  | .vmfirst _ d a => enc 58 [(d.toNat, 21), (a.toNat, 16), (7, 0)]
  | .vext _ d a b f => enc 58 [(d.toNat, 21), (a.toNat, 16), (b.toNat, 11), (b2n f, 10), (8, 0)]
  | .vrel _ _ a => enc 58 [(a.toNat, 16), (9, 0)]
  | .stCopy _ _ k sd gd ss gs => enc 60 [(0, 23), (k.toNat, 19), (sd.toNat, 16), (gd.toNat, 11), (ss.toNat, 8), (gs.toNat, 3)]
  | .stShp _ _ k p q => enc 60 [(1, 23), (k.toNat, 19), (p.toNat, 11), (q.toNat, 3)]
  | .stFill _ _ k sd gd gv => enc 60 [(2, 23), (k.toNat, 19), (sd.toNat, 16), (gd.toNat, 11), (gv.toNat, 3)]
  | .stSig _ _ k a off => enc 60 [(3, 23), (k.toNat, 19), (a.toNat, 11), (off.toNat, 0)]
  | _ => 0

end Sys2Proof.Machine
end

