-- ==== Sys2Proof/Machine/Flags.lean ====
section
/-! DEFINITION. The flags register and the integer ALU's results and flags (R261, R266, R267, R269). -/

namespace Sys2Proof.Machine

/-- Flags N, Z, C, V of an instruction that sets them; S takes V (R261, R262). -/
def setFlags (old : Dword) (n z c v : Bool) : Dword :=
  BitVec.ofNat 64 (16 * b2n n + 8 * b2n z + 4 * b2n c + 2 * b2n v + b2n (bit old 0 || v))

def flagN (f : Dword) : Bool := bit f 4
def flagZ (f : Dword) : Bool := bit f 3
def flagC (f : Dword) : Bool := bit f 2
def flagV (f : Dword) : Bool := bit f 1
def flagS (f : Dword) : Bool := bit f 0

/-- A condition of `b.cond` (R269). -/
def condHolds (cond : BitVec 4) (f : Dword) : Bool :=
  match cond.toNat with
  | 0 => flagZ f
  | 1 => !flagZ f
  | 2 => flagN f != flagV f
  | 3 => flagN f == flagV f
  | 4 => flagZ f || (flagN f != flagV f)
  | 5 => !flagZ f && (flagN f == flagV f)
  | 6 => !flagC f
  | 7 => flagC f
  | 8 => !flagC f || flagZ f
  | 9 => flagC f && !flagZ f
  | 10 => flagN f
  | 11 => flagN f || flagZ f
  | 12 => flagC f || flagZ f
  | 13 => flagV f
  | 14 => !flagV f
  | _ => flagS f

/-- A result with the C and V that F = 1 records (R266). -/
structure Alu where
  res : Dword
  c : Bool := false
  v : Bool := false
deriving DecidableEq, Repr

/-- Signed value outside 64 bits. -/
def outside64 (i : Int) : Bool := decide (i < -(2 ^ 63)) || decide (2 ^ 63 ≤ i)

def aluAdd (a b : Dword) (cin : Nat) : Alu :=
  ⟨BitVec.ofNat 64 (a.toNat + b.toNat + cin), decide (2 ^ 64 ≤ a.toNat + b.toNat + cin),
    outside64 (a.toInt + b.toInt + cin)⟩
/-- A − B − (1 − C); C out is 1 where there is no borrow. -/
def aluSub (a b : Dword) (borrow : Nat) : Alu :=
  ⟨a - b - BitVec.ofNat 64 borrow, decide (b.toNat + borrow ≤ a.toNat), outside64 (a.toInt - b.toInt - borrow)⟩
def aluMul (a b : Dword) : Alu := ⟨a * b, false, outside64 (a.toInt * b.toInt)⟩
def aluMulh (a b : Dword) : Alu := ⟨dw (a.toInt * b.toInt / 2 ^ 64), false, false⟩
def aluMulhu (a b : Dword) : Alu := ⟨BitVec.ofNat 64 (a.toNat * b.toNat / 2 ^ 64), false, false⟩

/-- The two cases of R267 set V. -/
def divCorner (sgn : Bool) (a b : Dword) : Bool :=
  decide (b = 0) || (sgn && decide (a.toInt = -(2 ^ 63)) && decide (b.toInt = -1))
/-- Quotients round toward zero; a division by zero gives 0 (R266, R267). -/
def aluDiv (a b : Dword) : Alu := ⟨if b = 0 then 0 else dw (a.toInt.tdiv b.toInt), false, divCorner true a b⟩
def aluDivu (a b : Dword) : Alu := ⟨if b = 0 then 0 else BitVec.ofNat 64 (a.toNat / b.toNat), false, divCorner false a b⟩
/-- Remainders have the dividend's sign; a division by zero gives the dividend. -/
def aluRem (a b : Dword) : Alu := ⟨if b = 0 then a else dw (a.toInt.tmod b.toInt), false, divCorner true a b⟩
def aluRemu (a b : Dword) : Alu := ⟨if b = 0 then a else BitVec.ofNat 64 (a.toNat % b.toNat), false, divCorner false a b⟩

def aluPlain (r : Dword) : Alu := ⟨r, false, false⟩

/-- Number of zero bits above the highest one, and below the lowest one, of 64. -/
def clz64 (a : Dword) : Nat := 64 - bitLen a.toNat
def ctzFrom : Nat → Nat → Nat
  | 0, _ => 0
  | n + 1, v => if v % 2 = 1 then 0 else 1 + ctzFrom n (v / 2)
def ctz64 (a : Dword) : Nat := ctzFrom 64 a.toNat

/-- The flags after an ALU instruction with F = 1 (R266). -/
def aluFlags (old : Dword) (r : Alu) : Dword := setFlags old (bit r.res 63) (decide (r.res = 0)) r.c r.v

/-- An ALU instruction completes: the result goes to gD, and with F = 1 the flags are set. -/
def aluDone (c : CoreId) (d : GReg) (f : Bool) (r : Alu) (s : State) : State :=
  let k := s.core c
  let k' := k.setG d r.res
  s.retire c (if f then { k' with flags := aluFlags k.flags r } else k')

end Sys2Proof.Machine
end

