-- ==== Sys2Proof/Machine/L1.lean ====
section
/-! DEFINITION. The L1 cache and the store buffer of a core (R308–R319). -/

namespace Sys2Proof.Machine

/-- Set of a line (R308). -/
def l1Set (line : Nat) : Nat :=
  let a := line * 64
  nfld a 13 6 ^^^ nfld a 21 14 ^^^ nfld a 29 22

/-- Key of the way that holds a line. -/
def Core.l1Way (k : Core) (line : Nat) : Option Nat :=
  ((range (4 * l1Set line) 4).find? (fun i => match Tab.find k.l1 i with
    | some e => decide (e.line = line)
    | none => false))

def Core.l1Line (k : Core) (line : Nat) : Option (Nat × L1Line) := match k.l1Way line with
  | some i => (Tab.find k.l1 i).map (fun e => (i, e))
  | none => none

/-- Pseudo-LRU bits after a use of way `w`: bit 0 points to the pair, bits 1 and 2 to the way within it (log entry 13). -/
def plruTouch (b w : Nat) : Nat :=
  let root := if w < 2 then 1 else 0
  let l := if w < 2 then 1 - w % 2 else nfld b 1 1
  let r := if w < 2 then nfld b 2 2 else 1 - w % 2
  root + 2 * l + 4 * r
/-- The least recently used way. -/
def plruVictim (b : Nat) : Nat := if nfld b 0 0 = 0 then nfld b 1 1 else 2 + nfld b 2 2

def Core.l1Touch (k : Core) (i : Nat) : Core :=
  { k with plru := Tab.set k.plru (i / 4) (plruTouch (Tab.get 0 k.plru (i / 4)) (i % 4)) }

/-- The way a fill of a line takes: an invalid one, otherwise the least recently used (R308). -/
def Core.l1Take (k : Core) (line : Nat) : Nat :=
  match (range (4 * l1Set line) 4).find? (fun i => !Tab.has k.l1 i) with
  | some i => i
  | none => 4 * l1Set line + plruVictim (Tab.get 0 k.plru (l1Set line))

/-- What a parity check of a line leads to (R313). -/
inductive Parity where
  | good | refetch | machineCheck
deriving DecidableEq, Repr

def parity (up : Upset) (dirty : Bool) : Parity := match up with
  | .none | .regs => .good
  | .data => if dirty then .machineCheck else .refetch
  | .tag => .machineCheck

/-- A machine check at an L1 line (R313). -/
def State.lineCheck (s : State) (c : CoreId) (line : Nat) : State := s.machineCheck c 9 (line * 64)

/-- A corrected parity error: counted, and latched as source 2 (R313). -/
def State.parityFixed (s : State) (c : CoreId) : State := match c with
  | .tower t => (((s.setF (Reg.twrStatL1Perr t.toNat) 1).incF (Reg.twrL1PerrPerr t.toNat) 1).latch t.toNat 2).bump .l1Perr t.toNat 1
  | .keep _ => s

/-- The newest `n` entries of a tracker are marked as awaited by a load (R318). -/
def State.awaitLast (s : State) (t n : Nat) : State :=
  if n = 0 then s
  else s.modTw t (fun w =>
    let k := w.track.length - n
    { w with track := w.track.take k ++ (w.track.drop k).map (fun e => { e with awaited := true }) })

/-- Posts a write of a core to places outside its own store; false where no tracker entry is free or an own write to the
granule is not accepted (R349, R350, R425). -/
def State.postWrite (s : State) (c : CoreId) (ps : List Piece) (bs : List Byte) : Bool × State :=
  let t := trackIdx c
  let reqs := s.outside t (writeReqs ps bs)
  if s.trackRoom t 0 < reqs.length then (false, s.starve t 0 true)
  else if reqs.any (fun q => (s.tw t).writeBusy 0 q.fpa) = true then (false, s)
  else (true, overList reqs (fun q s => s.issue t 0 true q) (s.starve t 0 false))

/-- An access of a core meets a hole: with `part` it was outstanding when its home was retired (R32, R33). A Keep core runs
no step that could end. -/
def State.coreHole (s : State) (c : CoreId) (acc : Access) (p : Piece) (part : Bool) : State := match c with
  | .tower t => s.holeFault t.toNat 0 acc p.fpa p.dva part
  | .keep _ => s

/-- Writes bytes of a core to their region: accepted at once in this module's memory, posted elsewhere. The flag says that
it was issued; an error response strikes the step (R317, R360). A store whose home was retired after its checks was
outstanding there (R33). -/
def State.writeRegion (s : State) (c : CoreId) (ps : List Piece) (bs : List Byte) : Bool × State :=
  match s.lostPiece ps with
  | some p => (true, s.coreHole c .write p true)
  | none =>
    let (ok, s) := s.postWrite c ps bs
    if !ok then (false, s)
    else
      let (e, s) := s.scatter (trackIdx c) ps bs
      (true, if e then s.strikeCore c else s)

/-- The piece of a line. -/
def linePiece (line dva : Nat) : Piece := ⟨line * 64, 64, dva⟩

/-- How a line's write-back ends. -/
inductive WbEnd where
  /-- it was not issued -/
  | held
  /-- it was issued, or nothing was dirty -/
  | sent
  /-- its bytes are lost -/
  | lost
deriving DecidableEq, Repr

/-- Sends the bytes of a line to their home (R561): on an error response, or where its home has been retired, they are
lost. -/
def State.sendLine (s : State) (c : CoreId) (e : L1Line) : WbEnd × State :=
  let ps := [linePiece e.line e.dva]
  match s.lostPiece ps with
  | some p => (.lost, s.coreHole c .write p false)
  | none =>
    let (ok, s) := s.postWrite c ps e.data
    if !ok then (.held, s)
    else
      let (err, s) := s.scatter (trackIdx c) ps e.data
      if err then (.lost, s.strikeCore c) else (.sent, s)

/-- Writes a dirty line back; false where it could not be issued. A line whose bytes are lost is invalid (R561). -/
def State.writeBack (s : State) (c : CoreId) (i : Nat) : Bool × State :=
  match Tab.find (s.core c).l1 i with
  | none => (true, s)
  | some e =>
    if !e.dirty then (true, s)
    else match s.sendLine c e with
      | (.held, s) => (false, s)
      | (.lost, s) => (true, s.modCore c (fun k => { k with l1 := Tab.del k.l1 i }))
      | (.sent, s) => (true, s.modCore c (fun k => { k with l1 := Tab.set k.l1 i { e with dirty := false } }))

/-- Empties the victim buffer if its line can be sent (R308). -/
def State.drainVictim (s : State) (c : CoreId) : Bool × State := match (s.core c).victim with
  | none => (true, s)
  | some e => match s.sendLine c e with
    | (.held, s) => (false, s)
    | (_, s) => (true, s.modCore c (fun k => { k with victim := none }))

/-- The victim buffer holds the line. -/
def Core.victimIs (k : Core) (line : Nat) : Bool := match k.victim with | some v => decide (v.line = line) | none => false

/-- Empties the victim buffer if it holds the line. -/
def State.drainVictimOf (s : State) (c : CoreId) (line : Nat) : State :=
  if (s.core c).victimIs line then (s.drainVictim c).2 else s

/-- Invalidates a line. -/
def State.l1Drop (s : State) (c : CoreId) (i : Nat) : State := s.modCore c (fun k => { k with l1 := Tab.del k.l1 i })

/-- Writes the victim buffer and every dirty line back (R319); false where some could not be issued. `up` is what the
parity check of the dirty lines meets (R313). -/
def State.writeBackAll (s : State) (c : CoreId) (up : Upset) : Bool × State :=
  let (ok, s) := s.drainVictim c
  match if up = .none ∨ up = .regs then none else (s.core c).l1.find? (fun e => e.2.dirty) with
  | some e => (false, s.lineCheck c e.2.line)
  | none => (s.core c).l1.foldl (fun (acc : Bool × State) e =>
    let (ok, s') := acc.2.writeBack c e.1
    (acc.1 && ok, s')) (ok, s)

/-- An own write of the line has not been accepted (R310, R317). -/
def State.lineBusy (s : State) (c : CoreId) (line : Nat) : Bool :=
  (s.core c).victimIs line || (s.tw (trackIdx c)).track.any (fun e => e.posted && !e.done && decide (e.fpa / 64 = line))

/-- Starts a fill of a line (R312): one fill at a time, and not before the core's own writes of the line are accepted
(R310). -/
def State.startFill (s : State) (c : CoreId) (line dva : Nat) : State :=
  let s := (s.drainVictim c).2
  if s.lineBusy c line then s
  else
    let s := s.modCore c (fun k => { k with fill := some ⟨line, dva⟩ })
    let s := match c with
      | .tower t => s.incF (Reg.twrL1MissMiss t.toNat) 1
      | .keep _ => s
    (s.gateKeep (trackIdx c) 0 (readReqs [linePiece line dva])).2

/-- The line that has arrived is allocated in way `i`. -/
def State.allocate (s : State) (c : CoreId) (i : Nat) (e : L1Line) : State :=
  (s.ungate (trackIdx c) 0).modCore c (fun k =>
    ({ k with fill := none, l1 := Tab.set k.l1 i e }).l1Touch i)

/-- The line being filled has arrived: it is allocated, and a dirty victim moves to the victim buffer, which must be empty
(R308, R312). An error response strikes the step and allocates nothing (R360); so does the retirement of the line's home
(R33). `up` is what the victim's parity check meets. -/
def State.finishFill (s : State) (c : CoreId) (up : Upset) : State :=
  match (s.core c).fill with
  | none => s
  | some f =>
    let ps := [linePiece f.line f.dva]
    let quit := fun (s : State) => (s.ungate (trackIdx c) 0).modCore c (fun k => { k with fill := none })
    match s.lostPiece ps with
    | some p => (quit s).coreHole c .read p true
    | none =>
      match s.gateKeep (trackIdx c) 0 (readReqs ps) with
      | (.blocked, s) => s
      | (.ready bytes, s) =>
        let i := (s.core c).l1Take f.line
        let old := Tab.find (s.core c).l1 i
        let (free, s) := match old with
          | some v => if v.dirty then s.drainVictim c else (true, s)
          | none => (true, s)
        if !free then s
        else
          let (e, s) := s.readLocal (trackIdx c) ps
          let new : L1Line := ⟨f.line, false, s.gather bytes ps, f.dva⟩
          if e then (quit s).strikeCore c
          else match old with
            | none => s.allocate c i new
            | some v =>
              match parity up v.dirty with
              | .machineCheck => s.lineCheck c v.line
              | .refetch => (s.parityFixed c).allocate c i new
              | .good =>
                let s := if v.dirty then s.modCore c (fun k => { k with victim := some v }) else s
                ((s.allocate c i new).drainVictim c).2

/-- The 64-byte parts of pieces. -/
def splitAll (ps : List Piece) : List Piece := ps.flatMap Piece.split

/-- Lines that a piece list touches, with the DVA of each. -/
def linesOf (ps : List Piece) : List (Nat × Nat) := (splitAll ps).map (fun q => (q.fpa / 64, q.dva - q.fpa % 64))

/-- Puts bytes into a line. -/
def patch (old : List Byte) (o : Nat) (bs : List Byte) : List Byte := old.take o ++ bs ++ old.drop (o + bs.length)

/-- Updates valid lines with stored bytes; `dirty` marks them (R309). -/
def Core.l1Update (k : Core) (dirty : Bool) : List Piece → List Byte → Core
  | [], _ => k
  | p :: ps, bs =>
    let k' := match k.l1Line (p.fpa / 64) with
      | some (i, e) =>
        ({ k with l1 := Tab.set k.l1 i { e with dirty := e.dirty || dirty, data := patch e.data (p.fpa % 64) (bs.take p.len) } }).l1Touch i
      | none => k
    k'.l1Update dirty ps (bs.drop p.len)

/-- Performs the store at the head of the buffer under its policy (R309, R317): true when it left the buffer. A
write-back miss starts a fill and waits; a write to the region waits for a fill of its line, and for the older bytes of its
line to leave the victim buffer (R308, R310). `up` is what the parity check of a line it writes back meets. -/
def State.drainOne (s : State) (c : CoreId) (up : Upset) : Bool × State :=
  let k := s.core c
  match k.sbuf with
  | [] => (false, s)
  | e :: rest =>
    let lp := splitAll e.pieces
    let lines := linesOf e.pieces
    let pop := fun s : State => s.modCore c (fun k => { k with sbuf := rest })
    let filling := match k.fill with | some f => lines.any (fun l => decide (l.1 = f.line)) | none => false
    if e.policy = 0 then
      match lines.find? (fun l => (k.l1Way l.1).isNone) with
      | some l => (false, if k.fill.isSome then s else s.startFill c l.1 l.2)
      | none => (true, pop (s.setCore c (k.l1Update true lp e.bytes)))
    else if filling then (false, s)
    else
    let s := overList lines (fun l s => s.drainVictimOf c l.1) s
    let k := s.core c
    if lines.any (fun l => k.victimIs l.1) then (false, s)
    else
    let written := fun (s : State) => if e.awaited then s.awaitLast (trackIdx c) (s.laterOf (writeReqs e.pieces e.bytes)).length else s
    if e.policy = 2 then
      let ways := lines.filterMap (fun l => k.l1Way l.1)
      match (ways.filterMap (Tab.find k.l1)).find? (fun l => decide (parity up l.dirty = .machineCheck) && l.dirty) with
      | some l => (false, s.lineCheck c l.line)
      | none =>
        let (ok, s) := ways.foldl (fun (acc : Bool × State) i =>
          let (o, s') := acc.2.writeBack c i
          (acc.1 && o, if o then s'.l1Drop c i else s')) (true, s)
        if !ok then (false, s)
        else
          let (ok, s) := s.writeRegion c e.pieces e.bytes
          (ok, if ok then pop (written s) else s)
    else
      let (ok, s) := s.writeRegion c e.pieces e.bytes
      if ok then (true, pop ((written s).modCore c (fun k => k.l1Update false lp e.bytes))) else (false, s)

/-- Performs buffered stores in program order while they can be (R316). -/
def State.drainSome (s : State) (c : CoreId) : Nat → State
  | 0 => s
  | n + 1 => match s.drainOne c .none with
    | (true, s') => s'.drainSome c n
    | (false, s') => s'

def State.drainAll (s : State) (c : CoreId) : State := s.drainSome c (s.core c).sbuf.length

/-- A write of the core still waits to be accepted. -/
def State.writesOut (s : State) (c : CoreId) : Bool :=
  (s.core c).victim.isSome || (s.tw (trackIdx c)).track.any (fun e => e.posted && !e.done && !e.orphan)

/-- A store of the core that its region has not accepted (R317). -/
def State.storesOut (s : State) (c : CoreId) : Bool := (s.tw (trackIdx c)).track.any Track.isStore

/-- Drains the buffer, writes every dirty line back, and says whether all writes are accepted: what `fence`, a
publishing `bset` or `bclr`, `done` and a preemption wait for (R319, R320). -/
def State.flush (s : State) (c : CoreId) (up : Upset) : Bool × State :=
  let s := s.drainAll c
  if (s.core c).sbuf ≠ [] then (false, s)
  else
    let (ok, s) := s.writeBackAll c up
    (ok && !s.writesOut c, s)

/-- Bytes of pieces from valid lines of the L1. -/
def Core.l1Bytes (k : Core) (ps : List Piece) : List Byte :=
  (splitAll ps).flatMap (fun q => match k.l1Line (q.fpa / 64) with
    | some (_, e) => (e.data.drop (q.fpa % 64)).take q.len
    | none => List.replicate q.len 0)

/-- Two lists of pieces share a byte. -/
def piecesMeet (ps qs : List Piece) : Bool := ps.any (fun a => qs.any (fun b => overlaps a.fpa a.len b.fpa b.len))

/-- Buffered stores that share a byte with pieces (R318). -/
def sbOverlap (sb : List SbEntry) (ps : List Piece) : Bool := sb.any (fun e => piecesMeet e.pieces ps)

/-- How many entries at the front of a list lead up to the last one that satisfies `p`, it included. -/
def upToLast {α : Type} (p : α → Bool) (l : List α) : Nat := (l.reverse.dropWhile (fun x => !p x)).length

/-- A posted store shares a byte with pieces. -/
def Track.meets (e : Track) (ps : List Piece) : Bool := ps.any (fun b => overlaps e.fpa e.len b.fpa b.len)

/-- A load begins: it waits for the youngest store that shares a byte with it, and for every store ahead of that one
(R318). -/
def State.loadAwaits (s : State) (c : CoreId) (ps : List Piece) : State :=
  let k := s.core c
  let n := upToLast (fun (e : SbEntry) => piecesMeet e.pieces ps) k.sbuf
  let tr := (s.tw (trackIdx c)).track
  let m := if n ≠ 0 then tr.length else upToLast (fun e => e.isStore && e.meets ps) tr
  let s := s.modCore c (fun k => { k with
    sbuf := (k.sbuf.take n).map (fun e => { e with awaited := true }) ++ (k.sbuf.drop n).map (fun e => { e with awaited := false }) })
  s.modTw (trackIdx c) (fun w => { w with
    track := (w.track.take m).map (fun e => { e with awaited := e.isStore }) ++ (w.track.drop m).map (fun e => { e with awaited := false }) })

/-- Performs buffered stores while the head is awaited. -/
def State.drainAwaited (s : State) (c : CoreId) : State := s.drainSome c ((s.core c).sbuf.filter (·.awaited)).length

/-- The load still waits for a store (R318). -/
def State.loadWaits (s : State) (c : CoreId) : Bool :=
  (s.core c).sbuf.any (·.awaited) || (s.tw (trackIdx c)).track.any (fun e => e.awaited && !e.done)

/-- The bytes of a Keep core's load from a hole, of which R32 says that no data is transferred: free bytes (log entry 41). -/
def State.holeBytes (s : State) (n : Nat) : List Byte × State :=
  let (v, s) := s.free
  let (u, s) := s.free
  ((leBytes 8 v.toNat ++ leBytes 8 u.toNat).take n, s)

/-- A scalar load of `n` bytes at an offset, by the instruction of word `w` (R272, R309, R312, R313, R318). -/
def State.loadBytes (s : State) (c : CoreId) (w : Word) (g : Seg) (o n : Nat) (up : Upset)
    (done' : List Byte → State → Out) : Out :=
  match s.coreResolve c g .read o n with
  | (.error e, s) => s.accessFails c w .read e (fun s =>
      let (bs, s) := s.holeBytes n
      done' bs s)
  | (.ok ps, s) =>
    let s := if (s.core c).wait = .storeBuffer then s else s.loadAwaits c ps
    let s := s.drainAwaited c
    if !s.executes c then .next s
    else if s.loadWaits c then .next (s.stall c .storeBuffer w)
    else if g.policy = 3 then
      if (s.core c).fill.isSome && ps.any (fun p => s.later p.fpa) then .next (s.stall c .l1Miss w)
      else match s.gate (trackIdx c) 0 (readReqs ps) with
        | (.blocked, s) => .next (s.stall c .uncached w)
        | (.ready bytes, s) =>
          let (e, s) := s.readLocal (trackIdx c) ps
          if e then .next (s.strikeCore c) else done' (s.gather bytes ps) s
    else
      let k := s.core c
      let ways := (linesOf ps).filterMap (fun l => k.l1Way l.1)
      let found := ways.filterMap (Tab.find k.l1)
      match found.find? (fun l => decide (parity up l.dirty = .machineCheck)) with
      | some l => .next (s.lineCheck c l.line)
      | none =>
        let s := if found.any (fun l => decide (parity up l.dirty = .refetch)) then (overList ways (fun i s => s.l1Drop c i) s).parityFixed c else s
        let k := s.core c
        match (linesOf ps).find? (fun l => (k.l1Way l.1).isNone) with
        | none => done' (k.l1Bytes ps) (s.setCore c ((linesOf ps).foldl (fun k l =>
            match k.l1Way l.1 with | some i => k.l1Touch i | none => k) k))
        | some l => .next ((if k.fill.isSome then s else s.startFill c l.1 l.2).stall c .l1Miss w)

/-- A scalar store: its checks are made at issue, then it enters the buffer (R316). -/
def State.storeBytes (s : State) (c : CoreId) (w : Word) (g : Seg) (o : Nat) (bs : List Byte) : Out :=
  match s.coreResolve c g .write o bs.length with
  | (.error e, s) => s.accessFails c w .write e (fun s => .next (s.retire c (s.core c)))
  | (.ok ps, s) =>
    let s := if 8 ≤ (s.core c).sbuf.length then (s.drainOne c .none).2 else s
    let k := s.core c
    if 8 ≤ k.sbuf.length then .next (s.stall c .storeBuffer w)
    else .next (s.retire c { k with sbuf := k.sbuf ++ [⟨ps, g.policy, bs, false⟩] })

end Sys2Proof.Machine
end

