-- ==== Sys2Proof/Machine/Control.lean ====
section
/-! DEFINITION. Branches and jumps, moves and core state (R262, R269, R270, R285). -/

namespace Sys2Proof.Machine

/-- pc + 4 × offset. -/
def branchTarget (pc : Dword) (off : Int) : Dword := pc + dw (4 * off)

/-- Control goes to a target, or on to the next instruction; the loop buffer follows (R306, R307). -/
def jumpTo (c : CoreId) (k : Core) (target : Dword) (taken link : Bool) (s : State) : Out :=
  let next := if taken then target else k.pc + 4
  .next (s.retireTo c { k with loop := k.loop.transfer k.pc.toNat target.toNat taken link } next)

/-- `b.cond` (R269). -/
def execBCond (c : CoreId) (cond : BitVec 4) (off : BitVec 22) (s : State) : Out :=
  onCore c s fun s =>
    let k := s.core c
    jumpTo c k (branchTarget k.pc off.toInt) (condHolds cond k.flags) false s

/-- `jal` links in g31 (R270). -/
def execJal (c : CoreId) (off : BitVec 26) (s : State) : Out :=
  onCore c s fun s =>
    let k := s.core c
    jumpTo c (k.setG 31 (k.pc + 4)) (branchTarget k.pc off.toInt) true true s

/-- `j` (R270). -/
def execJ (c : CoreId) (off : BitVec 26) (s : State) : Out :=
  onCore c s fun s =>
    let k := s.core c
    jumpTo c k (branchTarget k.pc off.toInt) true false s

/-- `jalr` reads gA, links in gD, and ignores bits [1:0] (R270). -/
def execJalr (c : CoreId) (d a : GReg) (s : State) : Out :=
  onCore c s fun s =>
    let k := s.core c
    jumpTo c (k.setG d (k.pc + 4)) (k.getG a &&& ~~~ (3 : Dword)) true true s

/-- `mv.gf` (R285). -/
def execMvGf (c : CoreId) (d a : GReg) (s : State) : Out :=
  onCore c s fun s =>
    let k := s.core c
    .next (s.retire c (k.setG d (k.getF a)))

/-- `mv.fg` (R285). -/
def execMvFg (c : CoreId) (d a : GReg) (s : State) : Out :=
  onCore c s fun s =>
    let k := s.core c
    .next (s.retire c (k.setF d (k.getG a)))

/-- The core state register of a number (R262). -/
def Core.csr (k : Core) (n : Nat) : Option Dword := match n with
  | 0 => some k.flags | 1 => some k.fpcsr | 2 => some k.epc | 3 => some k.ecause | 4 => some k.eaddr
  | 5 => some k.evec | 6 => some k.estat | 7 => some k.bwin | 8 => some k.tower
  | _ => none

/-- A write of a mode and flags register: a reserved mode leaves the field unchanged (R83). -/
def fpcsrWrite (old v : Dword) : Dword :=
  let keep := decide (5 ≤ fld v 7 5)
  BitVec.ofNat 64 ((if keep then fld old 7 5 else fld v 7 5) * 32 + fld v 4 0)

/-- Writes the fields of a core state register (R262). -/
def Core.setCsr (k : Core) (n : Nat) (v : Dword) : Core := match n with
  | 0 => { k with flags := v &&& 0x1F }
  | 1 => { k with fpcsr := fpcsrWrite k.fpcsr v }
  | 2 => { k with epc := v }
  | 3 => { k with ecause := v &&& 0x7FFFF }
  | 4 => { k with eaddr := v }
  | 5 => { k with evec := v &&& 0xFFFFFFFFFFFFF001 }
  | 6 => { k with estat := (k.estat &&& 2) ||| (v &&& 1) }
  | 7 => { k with bwin := v &&& 0x3FF07FF }
  | _ => { k with tower := v &&& 0xFF007F007F }

/-- `mfcs`; numbers 9 and above name no register (R262, R285). -/
def execMfcs (c : CoreId) (d : GReg) (n : BitVec 5) (s : State) : Out :=
  onCore c s fun s =>
    let k := s.core c
    match k.csr n.toNat with
    | some v => .next (s.retire c (k.setG d v))
    | none => s.illegal c (encode (.mfcs c d n))

/-- `mtcs`: a Tower-level write to a read-only register is a privilege fault; a Keep writes every register
(R262, R263). -/
def execMtcs (c : CoreId) (n : BitVec 5) (a : GReg) (s : State) : Out :=
  onCore c s fun s =>
    let k := s.core c
    if 9 ≤ n.toNat then s.illegal c (encode (.mtcs c n a))
    else if isKeep c = false ∧ n.toNat ∈ [3, 4, 6, 7, 8] then s.privilege c n.toNat
    else .next (s.retire c (k.setCsr n.toNat (k.getG a)))

end Sys2Proof.Machine
end

