-- ==== Sys2Proof/Machine/Streams.lean ====
section
/-! DEFINITION. The access engines: the dispatcher, the stream slots and their descriptors (R337–R348, R369–R371). -/

namespace Sys2Proof.Machine

def Tower.slot (w : Tower) (k : Nat) : Slot := Tab.get {} w.slots k
def State.modSlot (s : State) (t k : Nat) (f : Slot → Slot) : State :=
  s.modTw t (fun w => { w with slots := Tab.set w.slots k (f (w.slot k)) })

/-- A stream error on slot `k`: the dispatcher stops (R347). -/
def State.strError (s : State) (t k code : Nat) : State :=
  let s := (s.setF (Reg.accStatErr t) 1).setF (Reg.accStatErrCode t) code
  (s.setF (Reg.accStatErrSlot t) k).engError t .str 22

/-- A segment fault of a slot (R342). -/
def State.strSegFault (s : State) (t k sub off : Nat) : State :=
  (s.modSlot t k (fun l => { l with stopped := 3 })).pendEngine t ⟨6, sub, off, k⟩

/-- An access of a slot does not go through (R344). -/
def State.strFail (s : State) (t k : Nat) (acc : Access) (x : AccErr) : State :=
  match x with
  | .seg sub off => s.strSegFault t k sub off
  | .xlat kind level addr adv dva =>
    (s.raiseFault t (4 + k) kind acc level addr adv dva).modSlot t k (fun l => { l with stopped := 2 })
  | .migWait => s
  | .walkErr host => s.walkFails (.tower (BitVec.ofNat 7 t)) host
  | .hole fpa dva => (s.modSlot t k (fun l => { l with stopped := 1 })).holeFault t (4 + k) acc fpa dva false

/-- A descriptor as its slot reads it: shape words (R370), sides. -/
structure Desc where
  rows : Nat
  rowBytes : Nat
  spitch : Int
  dpitch : Int
  evt : Bool
deriving DecidableEq, Repr

def descOf (shp shq : Dword) : Desc :=
  ⟨fld shq 47 32 + 1, fld shq 23 0 + 1, sext 32 (fld shp 63 32), sext 32 (fld shp 31 0), bit shq 24⟩

/-- Lowest and highest offset of a side, without wrapping (R342). -/
def Desc.span (d : Desc) (off : Nat) (pitch : Int) : Int × Int :=
  let last := (off : Int) + pitch * ((d.rows : Int) - 1)
  (min (off : Int) last, max (off : Int) last + (d.rowBytes : Int) - 1)

/-- Checks 1 to 3 of R272 on a side's range (R342). -/
def spanCheck (g : Seg) (acc : Access) (sp : Int × Int) : Option (Nat × Nat) :=
  if g.null then some (1, (sp.1 % 2 ^ 64).toNat)
  else if sp.1 < 0 then some (2, (sp.1 % 2 ^ 64).toNat)
  else match g.check acc sp.1.toNat (sp.2 - sp.1 + 1).toNat with
    | some (.seg sub off) => some (sub, off)
    | _ => none

/-- What the checks of R342 say of a descriptor: a copy names its source in position 1. -/
inductive DescCheck where
  | ok
  | error (code : Nat)
  | seg (sub off : Nat)
deriving DecidableEq, Repr

def descCheck (d : Desc) (sd : Seg) (gd : Nat) (src : Option (Seg × Nat)) : DescCheck :=
  let dst := d.span gd d.dpitch
  if 2 ^ 32 < d.rows * d.rowBytes then .error 1
  else
    let fs := match src with
      | some (ss, gs) => spanCheck ss .read (d.span gs d.spitch)
      | none => none
    match fs with
    | some (sub, off) => .seg sub off
    | none => match spanCheck sd .write dst with
      | some (sub, off) => .seg sub off
      | none => match src with
        | some (ss, gs) =>
          let sp := d.span gs d.spitch
          if (ss.base : Int) + sp.1 ≤ (sd.base : Int) + dst.2 ∧ (sd.base : Int) + dst.1 ≤ (ss.base : Int) + sp.2
          then .error 3 else .ok
        | none => .ok

/-- The descriptor at the head of a slot completes (R345). -/
def State.descDone (s : State) (t k : Nat) (evt : Bool) : State :=
  let s := s.modSlot t k (fun l => { l with fifo := l.fifo.drop 1, row := 0, byte := 0 })
  if evt then (s.wr (Reg.accEvt t) (setBit (s.rd (Reg.accEvt t)) k true)).latch t 3 else s

/-- Bytes that a fill writes from DVA or offset `a` on: byte x takes byte x[2:0] of the value (R341). -/
def fillBytes (v : Dword) (a n : Nat) : List Byte := (range a n).map (fun x => v.extractLsb' (8 * (x % 8)) 8)

/-- The next piece of a descriptor from a point in a row on: bytes within one row and one 64 KiB page of each side, with the
offsets of the destination and the source (R343, R344). -/
def Desc.piece (d : Desc) (sd : Seg) (gd : Nat) (src : Option (Seg × Nat)) (row byte : Nat) : Nat × Nat × Nat :=
  let rest := d.rowBytes - byte
  let od := ((gd : Int) + d.dpitch * row + byte).toNat
  let nd := min rest (65536 - (sd.base + od) % 65536)
  match src with
  | none => (nd, od, 0)
  | some (ss, gs) =>
    let os := ((gs : Int) + d.spitch * row + byte).toNat
    (min nd (65536 - (ss.base + os) % 65536), od, os)

/-- A point `n` bytes further on in a descriptor. -/
def Desc.onward (d : Desc) (row byte n : Nat) : Nat × Nat :=
  if byte + n = d.rowBytes then (row + 1, 0) else (row, byte + n)

/-- A copy or fill as its slot reads it: descriptor, destination, source, and the value of a fill. -/
structure Move where
  d : Desc
  sd : Seg
  gd : Nat
  src : Option (Seg × Nat)
  v : Dword
deriving DecidableEq, Repr

/-- The copy or fill of an entry; none for `st.shp` and `st.sig`. -/
def QEntry.move (x : QEntry) : Option Move := match x.kind with
  | .insn (.stCopy ..) => some ⟨descOf (x.gv 2) (x.gv 3), x.seg 0, (x.gv 0).toNat, some (x.seg 1, (x.gv 1).toNat), 0⟩
  | .insn (.stFill ..) => some ⟨descOf (x.gv 2) (x.gv 3), x.seg 0, (x.gv 0).toNat, none, x.gv 1⟩
  | _ => none

/-- The pieces of both sides of a piece of a move, translated: source, destination (R344). -/
def State.movePieces (s : State) (t k : Nat) (m : Move) (row byte : Nat) :
    Except (Access × AccErr) (List Piece × List Piece) × State :=
  let (n, od, os) := m.d.piece m.sd m.gd m.src row byte
  let (rs, s) := match m.src with
    | none => (Except.ok [], s)
    | some (ss, _) => s.resolve t (6 + k) ss .read os n
  match rs with
  | .error e => (.error (.read, e), s)
  | .ok qs => match s.resolve t (6 + k) m.sd .write od n with
    | (.error e, s) => (.error (.write, e), s)
    | (.ok ps, s) => (.ok (qs, ps), s)

/-- Replaces the first entry of a FIFO that satisfies `p`. -/
def markFirst (p : QEntry → Bool) (f : QEntry → QEntry) : List QEntry → List QEntry
  | [] => []
  | x :: xs => if p x then f x :: xs else x :: markFirst p f xs

/-- The first entry whose checks are due: they are made as it enters, whatever the entries ahead of it have come to (R339). -/
def dueEntry (l : List QEntry) : Option QEntry := l.find? (fun x => decide (x.check = .due))

/-- The first address at or above page `p` that a side's rows from `row` on touch, that row from `byte` on. -/
def Desc.touches (d : Desc) (base off : Nat) (pitch : Int) (row byte p : Nat) : Option Nat :=
  (range row (d.rows - row)).foldl (fun (best : Option Nat) r =>
    let start := (((base + off : Nat) : Int) + pitch * r).toNat
    let first := max (if r = row then start + byte else start) (p * 65536)
    if start + d.rowBytes ≤ first then best
    else match best with
      | none => some first
      | some b => some (min b first)) none

/-- The page of a move that is translated next, in address order, at or after a page and side: its side and an address in it. -/
def Move.nextPage (m : Move) (row byte : Nat) (point : Nat × Nat) : Option (Nat × Nat) :=
  let dst := m.d.touches m.sd.base m.gd m.d.dpitch row byte point.1
  match m.src with
  | none => dst.map (fun a => (1, a))
  | some (ss, gs) =>
    let src := m.d.touches ss.base gs m.d.spitch row byte (if point.2 = 0 then point.1 else point.1 + 1)
    match src, dst with
    | some a, some b => if a / 65536 ≤ b / 65536 then some (0, a) else some (1, b)
    | some a, none => some (0, a)
    | none, some b => some (1, b)
    | none, none => none

/-- The point after a page and side. -/
def afterPage (side a : Nat) : Nat × Nat := if side = 0 then (a / 65536, 1) else (a / 65536 + 1, 0)

/-- The pages of a piece of a move are translated ahead (R339, R344). -/
def Slot.translated (l : Slot) (x : QEntry) (m : Move) : Bool :=
  let p := m.d.piece m.sd m.gd m.src l.row l.byte
  let past := fun (page side point pside : Nat) => decide (page < point) || (decide (page = point) && decide (side < pside))
  match l.ahead with
  | none => false
  | some (ser, page, side) =>
    if ser = x.serial then
      past ((m.sd.base + p.2.1) / 65536) 1 page side
        && (match m.src with | some (ss, _) => past ((ss.base + p.2.2) / 65536) 0 page side | none => true)
    else l.fifo.any (fun y => decide (y.serial = ser))

/-- What one turn of a slot comes to: whether it made progress, and the state. -/
abbrev Turn := Bool × State

/-- The checks of R342 on the entry whose turn it is (R339); `st.shp` and `st.sig` have none. -/
def State.slotCheck (s : State) (t k : Nat) (x : QEntry) : State :=
  let mark := fun (c : EntryCheck) (s : State) => s.modSlot t k (fun l =>
    { l with fifo := markFirst (fun y => decide (y.check = .due)) (fun y => { y with check := c }) l.fifo })
  match x.move with
  | none => mark .ok s
  | some m => match descCheck m.d m.sd m.gd m.src with
    | .ok => mark .ok s
    | .error c => (mark (.error c) s).strError t k c
    | .seg sub off => (mark .seg s).pendEngine t ⟨6, sub, off, k⟩

/-- The head of a slot has a segment fault of its own (R342). -/
def State.headSeg (s : State) (t k sub off : Nat) : State :=
  (s.modSlot t k (fun l => { l with fifo := markFirst (fun _ => true) (fun y => { y with check := .seg }) l.fifo })).strSegFault
    t k sub off

/-- A move's piece has been moved: the progress point goes on, and the bytes count (R371). -/
def State.pieceDone (s : State) (t k : Nat) (m : Move) (n : Nat) : State :=
  let s := s.incF (Reg.accWrBytesBytes t) n
  let s := if m.src.isSome then s.incF (Reg.accRdBytesBytes t) n else s
  s.modSlot t k (fun l =>
    let p := m.d.onward l.row l.byte n
    { l with row := p.1, byte := p.2 })

/-- One turn of the move at a slot's head, at most one request (R343): translation of the next piece, a request, or the
piece's end. -/
def State.moveTurn (s : State) (t k : Nat) (x : QEntry) (m : Move) : Turn :=
  let l := (s.tw t).slot k
  let who := 4 + k
  if m.d.rows ≤ l.row then (true, s.descDone t k m.d.evt)
  else match (s.tw t).planOf who x with
    | none =>
      if l.translated x m = false then
        (false, if l.aheadStop then s.modSlot t k (fun l => { l with stopped := 2 }) else s)
      else match s.movePieces t k m l.row l.byte with
        | (.error (_, .seg sub off), s) => (false, s.headSeg t k sub off)
        | (.error e, s) => (false, s.strFail t k e.1 e.2)
        | (.ok p, s) => (true, s.putPlan t who { serial := x.serial, parts := [(0, p.1), (1, p.2)] })
    | some p =>
      let qs := ((p.parts.head?).getD (0, [])).2
      let ps := (((p.parts.drop 1).head?).getD (0, [])).2
      let n := (ps.map (·.len)).foldl (· + ·) 0
      let before := Tab.get 0 (s.tw t).gates who
      let moved := fun (s : State) => decide (Tab.get 0 (s.tw t).gates who ≠ before)
      if p.row = 0 then
        match s.lostReq t who (readReqs qs) with
        | some e => (false, (s.modSlot t k (fun l => { l with stopped := 1 })).reqHole t who e)
        | none => match s.gateN 1 t who (readReqs qs) with
          | (.blocked, s) => (moved s, s)
          | (.ready b, s) => match s.readLocal t qs with
            | (true, s) => (false, s.strike t)
            | (false, s) =>
              let od := (m.d.piece m.sd m.gd m.src l.row l.byte).2.1
              let bs := if m.src.isSome then s.gather b qs else fillBytes m.v (m.sd.base + od) n
              (true, s.putPlan t who { p with row := 1, bytes := bs })
      else
        let reqs := readReqs qs ++ writeReqs ps p.bytes
        match s.lostReq t who reqs with
        | some e => (false, (s.modSlot t k (fun l => { l with stopped := 1 })).reqHole t who e)
        | none => match s.gateN 1 t who reqs with
          | (.blocked, s) => (moved s, s)
          | (.ready _, s) =>
            let (e, s) := (s.ungate t who).scatter t ps p.bytes
            if e then (false, s.strike t) else (true, s.pieceDone t k m n)

/-- A slot's piece is given up where it stands, with no request outstanding: the writes it has issued are made, and the slot
translates again from the first byte not written (R348, R399). -/
def State.slotSettle (s : State) (t k : Nat) : State :=
  let who := 4 + k
  match ((s.tw t).slot k).fifo with
  | [] => s.ungate t who
  | x :: _ => match (s.tw t).planOf who x, x.move with
    | some p, some m =>
      let qs := ((p.parts.head?).getD (0, [])).2
      let ps := (((p.parts.drop 1).head?).getD (0, [])).2
      let n := Tab.get 0 (s.tw t).gates who - (s.outside t (readReqs qs)).length
      let ws := writeReqs ps p.bytes
      let last := (((List.range ws.length).zip ws).filter (fun e => decide (s.place e.2.fpa ≠ .store t)))[n - 1]?
      let made := if n = 0 ∨ p.row = 0 then 0 else (last.map (fun e => e.1 + 1)).getD 0
      let done := ws.take made
      let s := overList done (fun q (s : State) => (s.scatter t [⟨q.fpa, q.len, q.dva⟩] q.data).2) (s.ungate t who)
      let k' := (done.map (·.len)).foldl (· + ·) 0
      if k' = 0 then s else s.pieceDone t k m k'
    | _, _ => s.ungate t who

/-- One page of a descriptor is translated ahead, in address order (R339): of the head from its progress point on, then of those behind
it that have passed their checks. A translation fault is raised at once and stops the slot's translation there; whatever else
the page meets is left to the movement of its bytes. -/
def State.aheadTurn (s : State) (t k : Nat) : Turn :=
  let l := (s.tw t).slot k
  let moves := (l.fifo.filter (fun x => decide (x.check = .ok))).filterMap (fun x => x.move.map (fun m => (x.serial, m)))
  let first := moves.head?.map (fun e => (e.1, 0, 0))
  let at' := match l.ahead with
    | some p => if moves.any (fun e => decide (e.1 = p.1)) then some p else first
    | none => first
  if l.aheadStop then (false, s)
  else match at' with
    | none => (false, s)
    | some (ser, point) => match (moves.dropWhile (fun e => decide (e.1 ≠ ser))) with
      | [] => (false, s)
      | (_, m) :: rest =>
        let put := fun (p : Option (Nat × Nat × Nat)) (s : State) => s.modSlot t k (fun l => { l with ahead := p })
        let from' := if (l.fifo.head?.map (·.serial)) = some ser then (l.row, l.byte) else (0, 0)
        match m.nextPage from'.1 from'.2 point with
        | none => match rest with
          | [] => (false, s)
          | e :: _ => (true, put (some (e.1, 0, 0)) s)
        | some (side, a) =>
          let (g, acc) := if side = 0 then ((m.src.getD (m.sd, 0)).1, Access.read) else (m.sd, Access.write)
          match s.resolve t (6 + k) g acc (a - g.base) 1 with
          | (.error (.xlat kind level addr adv dva), s) =>
            (true, (s.raiseFault t (4 + k) kind acc level addr adv dva).modSlot t k (fun l =>
              { l with ahead := some (ser, a / 65536, side), aheadStop := true }))
          | (.error .migWait, s) => (false, put (some (ser, a / 65536, side)) s)
          | (.error (.walkErr host), s) => (false, s.walkFails (.tower (BitVec.ofNat 7 t)) host)
          | (_, s) => (true, put (some (ser, afterPage side a)) s)

/-- One turn of a slot: a check that is due, the head's movement, or translation ahead of it (R338, R339, R342–R346). -/
def State.slotTurn (s : State) (t k : Nat) : Turn :=
  let l := (s.tw t).slot k
  match dueEntry l.fifo with
  | some x => (true, s.slotCheck t k x)
  | none =>
    let (went, s) : Turn := match l.fifo with
      | [] => (false, s)
      | x :: _ =>
        if l.stopped ≠ 0 then (false, s)
        else match x.check with
          | .seg => (false, s.modSlot t k (fun l => { l with stopped := 3 }))
          | .error _ => (false, s)
          | _ => match x.kind, x.move with
            | .insn (.stSig _ _ _ _ off), _ =>
              let c := CoreId.tower (BitVec.ofNat 7 t)
              let bad := fun (s : State) =>
                (s.modSlot t k (fun l => { l with fifo := markFirst (fun _ => true) (fun y => { y with check := .error 4 }) l.fifo })).strError
                  t k 4
              match bitPlace c (s.tw t).core ((x.gv 0).toNat + off.toNat) with
              | .barrier _ => (true, bad s)
              | .none => (true, bad s)
              | p => (true, (s.bitPut c p true).descDone t k false)
            | _, some m => s.moveTurn t k x m
            | _, none => (true, s.descDone t k false)
    if went || !s.enginesOn t then (went, s) else s.aheadTurn t k

/-- One turn of an access engine: its slots in rotation, up to the first that makes progress (R337, R343). -/
def State.accTurn (s : State) (t e : Nat) : Nat → Turn
  | 0 => (false, s)
  | n + 1 =>
    let r := Tab.get 0 (s.tw t).rot e
    let (went, s) := s.slotTurn t (4 * e + r % 4)
    let s := s.modTw t (fun w => { w with rot := Tab.set w.rot e ((r + 1) % 4) })
    if went || !s.enginesOn t then (went, s) else s.accTurn t e n

/-- The four access engines take turns until none makes progress. -/
def State.accGo (s : State) (t : Nat) : Nat → State
  | 0 => s
  | fuel + 1 =>
    if !s.enginesOn t then s
    else
      let (went, s) := (List.range 4).foldl (fun (a : Turn) e =>
        let (w, s) := a.2.accTurn t e 4
        (a.1 || w, s)) (false, s)
      if went then s.accGo t fuel else s

/-- Turns that the slots of a Tower take at most: sixteen slots of four descriptors, each of at most 2^17 pieces or 2^26
requests more than its rows. -/
def slotFuel : Nat := 2 ^ 36

/-- The slots run. -/
def State.slotsRun (s : State) (t : Nat) : State := s.accGo t slotFuel

/-- One slot alone goes on. -/
def State.slotGo (s : State) (t k : Nat) : Nat → State
  | 0 => s
  | fuel + 1 => if !s.enginesOn t then s else match s.slotTurn t k with
    | (true, s) => s.slotGo t k fuel
    | (false, s) => s

/-- The slot that a stream instruction names. -/
def streamSlot : Instr → Nat
  | .stCopy _ _ k _ _ _ _ | .stShp _ _ k _ _ | .stFill _ _ k _ _ _ | .stSig _ _ k _ _ => k.toNat
  | _ => 0

/-- The dispatcher places the head of the stream queue in the FIFO of its slot, if that has room (R338). A shape is checked
as it enters and applies to what enters after it (R340, R347, R370). -/
def State.strRun (s : State) (t : Nat) (x : QEntry) (i : Instr) : ERes :=
  let k := streamSlot i
  let l := (s.tw t).slot k
  match i with
  | .stShp .. =>
    if fld (x.gv 1) 63 48 ≠ 0 ∨ fld (x.gv 1) 31 26 ≠ 0 then (false, s.strError t k 2)
    else if 4 ≤ l.fifo.length then (false, s)
    else (true, s.modSlot t k (fun l => { l with shp := x.gv 0, shq := x.gv 1, fifo := l.fifo ++ [x] }))
  | .stCopy .. | .stFill .. | .stSig .. =>
    if 4 ≤ l.fifo.length then (false, s)
    else (true, s.modSlot t k (fun l => { l with fifo := l.fifo ++ [{ x with g := x.g ++ [l.shp, l.shq] }] }))
  | _ => (true, s)

/-- A descriptor completes (R345): the head of a slot's FIFO moves its remaining bytes and, with EVT, sets its event. -/
def execStreamDescriptorComplete (t : TId) (k : BitVec 4) (s : State) : Out :=
  .next (s.slotGo t.toNat k.toNat slotFuel)

end Sys2Proof.Machine
end

