-- ==== Sys2Proof/Machine/Lanes.lean ====
section
/-! DEFINITION. Arithmetic on one element of any format, as the q operations and the long-vector unit do it (R237–R244,
R284): exact results rounded once; integers wrap. -/

namespace Sys2Proof.Machine

/-- Arithmetic functions on an element. -/
inductive LOp where
  | add | sub | mul | div | sqrt | min | max | fma | fms | abs | neg | and | or | xor | sll | srl | sra | mv
  | cmul | cmac | conj
deriving DecidableEq, Repr

/-- A product term of an exact sum: whether it is subtracted, and its factors. -/
abbrev Term := Bool × Val × Val

/-- The factor one, which makes a plain addend a term. -/
def Val.one : Val := .fin false 1 0

/-- Kind and sign of a product term that is not a NaN: invalid, infinite, or an exact dyadic with the sign of its zero. -/
inductive TermVal where
  | bad
  | inf (neg : Bool)
  | num (neg : Bool) (v : Int × Int)
deriving DecidableEq, Repr

def termVal (t : Term) : TermVal :=
  let s := (t.2.1.neg != t.2.2.neg) != t.1
  match t.2.1, t.2.2 with
  | .fin _ m e, .fin _ n f => .num s (signed s (m * n), e + f)
  | x, y => if x.isZero || y.isZero then .bad else .inf s

/-- The exact sum of product terms rounded once (R242, R244). An invalid product or opposite infinities give the default
NaN and NV. A zero sum has the terms' sign where they agree, otherwise IEEE's (log entry 22). -/
def FFmt.sumTerms (F : FFmt) (rm : Rm) (pi : Bool) (nanOrder : List Val) (ts : List Term) : Nat × Fl :=
  match F.nanOf nanOrder with
  | some r => r
  | none =>
    let vs := ts.map termVal
    let pinf := vs.contains (.inf false)
    let ninf := vs.contains (.inf true)
    if vs.contains .bad || (pinf && ninf) then F.invalid
    else if pinf || ninf then (F.join ninf F.infEnc, {})
    else
      let nums : List (Bool × (Int × Int)) := vs.filterMap (fun v => match v with | .num n x => some (n, x) | _ => none)
      let total := nums.foldl (fun acc x => addDy acc x.2) (0, 0)
      let z : Bool := if nums.all (fun x => decide (x.2.1 = 0) && x.1) then true
        else if nums.all (fun x => decide (x.2.1 = 0) && !x.1) then false else decide (rm = .rdn)
      F.roundInt rm pi z total

/-- An operation on a floating element. A pip NaN comes out canonical (R76). DESIGN CHOICE (log entry 23): `vabs`, `vneg`
and the negation within `vconj` and `qconj` are sign-bit operations and raise no NV for a signalling NaN; R92 says any
operation, and R279 makes only the scalar ones quiet by name. -/
def floatOp (F : FFmt) (op : LOp) (rm : Rm) (pi : Bool) (a b d : Nat) : Nat × Fl :=
  let x := F.dec a
  let y := F.dec b
  let z := F.dec d
  let h := 2 ^ (F.width - 1)
  match op with
  | .add => F.addV rm pi x y
  | .sub => F.addV rm pi x y.flip
  | .mul => F.mulV rm pi x y
  | .div => F.divV rm pi x y
  | .sqrt => F.sqrtV rm pi x
  | .min => F.minmax false a b
  | .max => F.minmax true a b
  | .fma => F.fmaV rm pi x y z
  | .fms => F.fmaV rm pi x.flip y z
  | .abs => (if F.kind = .ieee ∨ x.isNan = false then a % h else F.qnan false 0, {})
  | .neg =>
    (if F.kind = .pip8 ∧ x.isZero then a
     else if F.kind = .ieee ∨ x.isNan = false then (if a < h then a + h else a - h)
     else F.qnan (!x.neg) 0, {})
  | _ => (a, {})

/-- An operation on an integer element: results wrap (R238). -/
def intOp (n : Nat) (op : LOp) (a b d : Nat) : Nat :=
  let x := sext n a
  let y := sext n b
  match op with
  | .add => trunc n (x + y)
  | .sub => trunc n (x - y)
  | .mul => trunc n (x * y)
  | .min => if x ≤ y then a else b
  | .max => if x ≤ y then b else a
  | .fma => trunc n (x * y + sext n d)
  | .fms => trunc n (-(x * y) + sext n d)
  | .abs => trunc n (x.natAbs : Int)
  | .neg => trunc n (-x)
  | .and => a &&& b
  | .or => a ||| b
  | .xor => a ^^^ b
  | .sll => a * 2 ^ (b % n) % 2 ^ n
  | .srl => a / 2 ^ (b % n)
  | .sra => trunc n (x / 2 ^ (b % n))
  | _ => a

/-- The two parts of a complex element. -/
def parts (F : FFmt) (x : Nat) : Nat × Nat := (x % 2 ^ F.width, x / 2 ^ F.width % 2 ^ F.width)
def joinParts (F : FFmt) (a b : Nat × Fl) : Nat × Fl := (a.1 + b.1 * 2 ^ F.width, a.2.or b.2)

/-- An operation on a complex element (R242). -/
def cplxOp (F : FFmt) (op : LOp) (rm : Rm) (a b d : Nat) : Nat × Fl :=
  let (ar, ai) := parts F a
  let (br, bi) := parts F b
  let (dr, di) := parts F d
  let v := F.dec
  let nans := [v ar, v ai, v br, v bi]
  let re : List Term := [(false, v ar, v br), (true, v ai, v bi)]
  let im : List Term := [(false, v ar, v bi), (false, v ai, v br)]
  match op with
  | .cmul => joinParts F (F.sumTerms rm false nans re) (F.sumTerms rm false nans im)
  | .cmac => joinParts F (F.sumTerms rm false (nans ++ [v dr]) (re ++ [(false, v dr, Val.one)]))
      (F.sumTerms rm false (nans ++ [v di]) (im ++ [(false, v di, Val.one)]))
  | .conj => joinParts F (ar, {}) (floatOp F .neg rm false ai 0 0)
  | .mv => (a, {})
  | op => joinParts F (floatOp F op rm false ar br dr) (floatOp F op rm false ai bi di)

/-- An operation on an element of a format. -/
def laneOp (f : Fmt) (op : LOp) (rm : Rm) (pi : Bool) (a b d : Nat) : Nat × Fl :=
  match fmtKind f with
  | .float F => floatOp F op rm pi a b d
  | .int I => (intOp I.bits op a b d, {})
  | .cplx F => cplxOp F op rm a b d

/-- A predicate on two elements of a format (R93, R94, R242). -/
def lanePred (f : Fmt) (p : Pred) (a b : Nat) : Bool × Fl :=
  match fmtKind f with
  | .cplx F =>
    let (ar, ai) := parts F a
    let (br, bi) := parts F b
    let x := p.eval (F.dec ar) (F.dec br)
    let y := p.eval (F.dec ai) (F.dec bi)
    (if p = .un then x.1 || y.1 else x.1 && y.1, x.2.or y.2)
  | k => p.eval (valOf k a) (valOf k b)

end Sys2Proof.Machine
end

