-- ==== Sys2Proof/Machine/Chain.lean ====
section
/-! DEFINITION. The Turret's chain on values: stage programs, transcendentals, tables, rows and reductions, and the
exponent histogram (R136, R137, R169–R190, R194). -/

namespace Sys2Proof.Machine

/-- Working format of a code (R169). -/
def workFmt (n : Nat) : Option FFmt := match n with
  | 0 => some .short | 1 => some .b32 | 2 => some .b64 | _ => none

/-! Transcendentals. -/

/-- A magnitude encoding lies within `bound` units of 2^u of (m + θ) × 2^e, 0 < θ < 1. -/
def FFmt.near (F : FFmt) (bound : Nat) (u : Int) (m : Nat) (e : Int) (c : Nat) : Bool :=
  match F.dec c with
  | .fin _ k q =>
    decide (c ≤ F.maxEnc)
      && decide ((addDy (addDy (k, q) (-(m : Int), e)) (-(bound : Int), u)).1 ≤ 0)
      && decide ((addDy (addDy ((m : Int) + 1, e) (-(k : Int), q)) (-(bound : Int), u)).1 ≤ 0)
  | _ => false

/-- A result that is not exact: one of the representable values within `bound` ulp of (m + θ) × 2^e (R189, R190; log
entry 16). -/
def FFmt.within (F : FFmt) (fn bound x : Nat) (neg : Bool) (m : Nat) (e : Int) : Nat × Fl :=
  let rne := F.round .rne false neg m e true
  if rne.2.ofl then rne
  else
    let lo := (F.round .rtz false neg m e true).1 % 2 ^ (F.ebits + F.fbits)
    let u := max ((bitLen m : Int) - 1 + e - F.fbits) F.qmin
    let cands := ((List.range 9).map (fun i => lo + i - 4)).filter (F.near bound u m e)
    let r := (cands[Config.ulpPick fn F.width x % max 1 cands.length]?).getD lo
    (F.join neg r, { nx := true, uf := decide (r < 2 ^ F.fbits) })

/-- The roots 2^(2^−1), 2^(2^−2), … in units of 2^−p, truncated. -/
def expRoots : Nat → Nat → Nat → List Nat
  | 0, _, _ => []
  | k + 1, p, c =>
    let r := isqrt (p + 2) (c * 2 ^ p) 0
    r :: expRoots k p r

/-- 2^f in units of 2^−p, truncated, for a fraction f given by its leading bits. -/
def expFrac (p : Nat) : List Nat → Nat → Nat → Nat → Nat
  | [], _, _, acc => acc
  | r :: rs, f, h, acc =>
    if h ≤ f then expFrac p rs (f - h) (h / 2) (acc * r / 2 ^ p) else expFrac p rs f (h / 2) acc

/-- Bits of the fixed-point arithmetic of EXP2. -/
def expBits : Nat := 160

/-- EXP2 (R189, R190). -/
def FFmt.exp2 (F : FFmt) (x : Nat) : Nat × Fl :=
  match F.dec x with
  | .nan n s p => (F.qnan n p, { nv := s })
  | .inf n => (if n then F.zero false else F.join false F.infEnc, {})
  | .fin n m e =>
    if m = 0 then (F.round .rne false false 1 0 false)
    else
      let v := signed n m
      if 0 ≤ e ∨ m % 2 ^ (-e).toNat = 0 then
        let i := if 0 ≤ e then v * 2 ^ (min e.toNat 20) else v / 2 ^ (-e).toNat
        let i := max (-5000) (min 5000 i)
        let r := F.round .rne false false 1 i false
        if r.2.nx then F.within 0 (if F.width = 64 then 2 else 1) x false 1 i else r
      else
        let i := v / 2 ^ (-e).toNat
        let fr := (v % 2 ^ (-e).toNat).toNat
        let sh := (-e).toNat
        let f := if sh ≤ expBits then fr * 2 ^ (expBits - sh) else fr / 2 ^ (sh - expBits)
        let y := expFrac (expBits + 40) (expRoots expBits (expBits + 40) (2 * 2 ^ (expBits + 40))) f (2 ^ (expBits - 1))
          (2 ^ (expBits + 40))
        let i := max (-5000) (min 5000 i)
        F.within 0 (if F.width = 64 then 2 else 1) x false y (i - (expBits + 40 : Nat))

/-- Bits of log2 of a number in [1, 2) held in units of 2^−p. -/
def logFrac (p : Nat) : Nat → Nat → Nat → Nat
  | 0, _, acc => acc
  | k + 1, x, acc =>
    let y := x * x / 2 ^ p
    if 2 ^ (p + 1) ≤ y then logFrac p k (y / 2) (2 * acc + 1) else logFrac p k y (2 * acc)

/-- LOG2 (R189, R190). -/
def FFmt.log2 (F : FFmt) (x : Nat) : Nat × Fl :=
  match F.dec x with
  | .nan n s p => (F.qnan n p, { nv := s })
  | .inf false => (F.join false F.infEnc, {})
  | .inf true => F.invalid
  | .fin n m e =>
    if m = 0 then (F.join true F.infEnc, { dz := true })
    else if n then F.invalid
    else
      let b := bitLen m - 1
      let i : Int := (b : Int) + e
      if m = 2 ^ b then F.roundInt .rne false false (i, 0)
      else
        let fr := logFrac 512 240 (m * 2 ^ (512 - b)) 0
        let t : Int := i * 2 ^ 240 + fr
        let bound := if F.width = 64 then 2 else 1
        if 0 ≤ t then F.within 1 bound x false t.toNat (-240)
        else F.within 1 bound x true ((-t).toNat - 1) (-240)

/-- RECIP (R189, R190). -/
def FFmt.recip (F : FFmt) (x : Nat) : Nat × Fl :=
  match F.dec x with
  | .fin n m e =>
    if m = 0 then F.divV .rne false Val.one (.fin n 0 0)
    else
      let r := F.divV .rne false Val.one (.fin n m e)
      if r.2.nx then F.within 2 1 x n (2 ^ 200 / m) (-200 - e) else r
  | v => F.divV .rne false Val.one v

/-- RSQRT (R189, R190). -/
def FFmt.rsqrt (F : FFmt) (x : Nat) : Nat × Fl :=
  match F.dec x with
  | .nan n s p => (F.qnan n p, { nv := s })
  | .inf false => (F.zero false, {})
  | .inf true => F.invalid
  | .fin n m e =>
    if m = 0 then (F.join n F.infEnc, { dz := true })
    else if n then F.invalid
    else
      let b := bitLen m - 1
      let i : Int := (b : Int) + e
      if m = 2 ^ b ∧ i % 2 = 0 then F.round .rne false false 1 (-(i / 2)) false
      else
        let odd := decide (e % 2 ≠ 0)
        let z := 2 ^ 400 / (if odd then 2 * m else m)
        let h : Int := if odd then (e - 1) / 2 else e / 2
        F.within 3 (if F.width = 19 then 1 else 2) x false (isqrt 220 z 0) (-200 - h)

/-! Tables (R188). -/

/-- A table entry as an element of the working format. -/
def tableAt (t : List Nat) (i : Nat) : Nat := (t[i]?).getD 0

/-- Direct lookup. A value with a fraction sets NX (log entry 26). -/
def FFmt.tableDirect (F : FFmt) (t : List Nat) (x : Nat) : Nat × Fl :=
  match F.dec x with
  | .nan _ s _ => (F.dnan, { nv := s })
  | .inf n => (tableAt t (if n then 0 else 63), {})
  | .fin n m e =>
    let (k, inx) := roundAt .rtz n m e false 0
    let i := if n then 0 else min k 63
    (tableAt t i, { nx := inx })

/-- An exact value that may be infinite: a signed dyadic, or an infinity of a sign. -/
inductive XVal where
  | fin (v : Int × Int)
  | inf (neg : Bool)
deriving DecidableEq, Repr

/-- The exact value of a number. -/
def Val.exact : Val → Option XVal
  | .nan .. => none
  | .inf n => some (.inf n)
  | .fin n m e => some (.fin (signed n m, e))

/-- Exact sum and product; none where infinities give no value. -/
def XVal.add : XVal → XVal → Option XVal
  | .fin a, .fin b => some (.fin (addDy a b))
  | .inf n, .inf k => if n = k then some (.inf n) else none
  | .inf n, _ => some (.inf n)
  | _, .inf n => some (.inf n)
def XVal.mul : XVal → XVal → Option XVal
  | .fin a, .fin b => some (.fin (a.1 * b.1, a.2 + b.2))
  | .inf n, .inf k => some (.inf (n != k))
  | .inf n, .fin b => if b.1 = 0 then none else some (.inf (n != decide (b.1 < 0)))
  | .fin a, .inf n => if a.1 = 0 then none else some (.inf (n != decide (a.1 < 0)))
def XVal.minus : XVal → XVal
  | .fin a => .fin (-a.1, a.2)
  | .inf n => .inf (!n)

/-- Index and fraction of an interpolated lookup at t (R188). -/
def lerpAt : XVal → Nat × (Int × Int)
  | .inf n => if n then (0, (0, 0)) else (62, (1, 0))
  | .fin p =>
    let fl : Int := if 0 ≤ p.2 then p.1 * 2 ^ (min p.2.toNat 70) else p.1 / 2 ^ (-p.2).toNat
    let i := (max 0 (min 62 fl)).toNat
    let f := addDy p (-(i : Int), 0)
    (i, if f.1 < 0 then (0, 0) else if 0 ≤ (addDy f (-1, 0)).1 then (1, 0) else f)

/-- T[i] + f × (T[i + 1] − T[i]), before it is rounded. -/
def lerpVal (a b : Val) (f : Int × Int) : Option XVal := do
  let x ← a.exact
  let y ← b.exact
  let d ← y.add x.minus
  let p ← (XVal.fin f).mul d
  x.add p

/-- Interpolated lookup (R188). Where infinities or NaNs of the constants or the table leave no value, the result is open;
an exact zero is +0; only NX is raised beside R92's NV (log entry 26). -/
def FFmt.tableLerp (F : FFmt) (rm : Rm) (t : List Nat) (k1 k2 x : Nat) : Nat × Fl :=
  let a := F.dec x
  if a.isNan then (F.dnan, { nv := a.isSig })
  else
    let tv : Option XVal := do
      let xa ← a.exact
      let ka ← (F.dec k1).exact
      let kb ← (F.dec k2).exact
      let d ← xa.add ka.minus
      d.mul kb
    match tv with
    | none => (Config.tableOpen 0 F.width x % 2 ^ F.width, {})
    | some p =>
      let (i, f) := lerpAt p
      match lerpVal (F.dec (tableAt t i)) (F.dec (tableAt t (i + 1))) f with
      | some (.fin v) =>
        let r := F.roundInt rm false false v
        (r.1, { nx := r.2.nx })
      | some (.inf n) => (F.join n F.infEnc, {})
      | none => (Config.tableOpen 1 F.width x % 2 ^ F.width, {})

/-! Stage programs. -/

/-- A program as loaded (R172, R173): constants and table entries are rounded to the working format. -/
structure Prog where
  rowlen : Nat
  rm : Nat
  wf : Nat
  stages : List Nat
  k : List Nat
  t : List Nat
deriving DecidableEq, Repr

def Prog.fmt (p : Prog) : FFmt := (workFmt p.wf).getD .b32

/-- Fields of a stage word (R174). -/
def stType (w : Nat) : Nat := nfld w 31 28
def stFunc (w : Nat) : Nat := nfld w 27 24
def stA (w : Nat) : Nat := nfld w 23 20
def stB (w : Nat) : Nat := nfld w 19 16
def stC (w : Nat) : Nat := nfld w 15 12
def stOpt (w : Nat) : Nat := nfld w 3 0
def stBcast (w : Nat) : Bool := decide (nfld w 3 3 = 1)
def stMask (w : Nat) : Bool := decide (nfld w 2 2 = 1)
def isSoftmax (w : Nat) : Bool := decide (stType w = 8) && decide (stFunc w = 3)
def isReduce (w : Nat) : Bool := decide (stType w = 8) && decide (stFunc w < 3)

/-- Selects that a stage type uses: A, B, C (R175). -/
def stUses (w : Nat) : Bool × Bool × Bool := match stType w, stFunc w with
  | 0, _ => (true, true, true)
  | 1, 2 => (true, true, true)
  | 1, 3 => (true, false, false)
  | 1, _ => (true, true, false)
  | _, _ => (true, false, false)

/-- A stage reads K[KA] and K[KB]: by its selects, or as an interpolated lookup (R174, R188). -/
def stKA (w : Nat) : Bool :=
  decide (stA w = 6) || decide (stB w = 6) || decide (stC w = 6) || (decide (stType w = 2) && decide (stFunc w = 1))
def stKB (w : Nat) : Bool :=
  decide (stA w = 7) || decide (stB w = 7) || decide (stC w = 7) || (decide (stType w = 2) && decide (stFunc w = 1))

/-- TYPE, FUNC, OPT and selects of a stage word are none of them reserved, and unused selects are zero (R174–R176). -/
def stageOk (w : Nat) : Bool :=
  let f := stFunc w
  let o := stOpt w
  let tf := match stType w with
    | 0 => decide (f < 2) && decide (o = 0)
    | 1 => if f = 2 then decide (o < 4) else decide (f < 4) && decide (o = 0)
    | 2 => decide (f < 2) && decide (o = 0)
    | 3 | 4 | 5 | 6 => decide (f = 0) && decide (o = 0)
    | 7 => decide (f < 10) && decide (o = 0)
    | 8 => decide (f < 4) && decide (o % 4 = 0)
    | _ => false
  let (ua, ub, uc) := stUses w
  let sel := fun (used : Bool) (v : Nat) => if used then decide (v < 8) else decide (v = 0)
  tf && sel ua (stA w) && sel ub (stB w) && sel uc (stC w)

/-- A stage selects RED. -/
def stRed (w : Nat) : Bool := decide (stA w = 3) || decide (stB w = 3) || decide (stC w = 3)

/-- Every stage that selects RED has a broadcasting REDUCE before it. -/
def redOk : Bool → List Nat → Bool
  | _, [] => true
  | have', w :: ws => (have' || !stRed w) && redOk (have' || (isReduce w && stBcast w)) ws

/-- A REDUCE that does not broadcast is the last stage. -/
def lastOk : List Nat → Bool
  | [] => true
  | [_] => true
  | w :: ws => !(isReduce w && !stBcast w) && lastOk ws

/-- Pass count of R176. -/
def passCount (ws : List Nat) : Nat :=
  1 + (ws.filter (fun w => isReduce w && stBcast w)).length + 2 * (ws.filter isSoftmax).length

/-- The program of an image; none where R176 refuses it. -/
def parseProg (img : List Byte) : Option Prog :=
  let h := leAt img 0 8
  let n := nfld h 3 0
  let words := (List.range 12).map (fun i => leAt img (8 + 4 * i) 4)
  let ws := words.take n
  let rm := nfld h 10 8
  let zero := decide (nfld h 63 32 = 0) && decide (nfld h 19 11 = 0) && decide (nfld h 7 6 = 0)
    && (words.drop n).all (· = 0) && decide (leAt img 0x38 8 = 0) && decide (leNat ((img.drop 0xC0).take 64) = 0)
  match workFmt (nfld h 5 4) with
  | none => none
  | some F =>
    if n = 0 ∨ 12 < n ∨ rm = 5 ∨ rm = 6 ∨ zero = false ∨ ws.all stageOk = false ∨ redOk false ws = false
        ∨ lastOk ws = false ∨ ws.any (fun w => isSoftmax w && stBcast w) = true ∨ 3 < passCount ws then none
    else some {
      rowlen := nfld h 31 20 + 1, rm := rm, wf := nfld h 5 4, stages := ws,
      k := (List.range 16).map (fun i => (toFloat .b64 F .rne false (FFmt.dec .b64 (leAt img (0x40 + 8 * i) 8))).1),
      t := (List.range 64).map (fun i => (toFloat .b32 F .rne false (FFmt.dec .b32 (leAt img (0x100 + 4 * i) 4))).1) }

/-- The program reads source B: it selects Y or has MASK set (R177). -/
def Prog.usesY (p : Prog) : Bool :=
  p.stages.any (fun w => decide (stA w = 2) || decide (stB w = 2) || decide (stC w = 2)
    || (decide (stType w = 8) && stMask w))

/-- The program writes one element a row (R186). -/
def Prog.oneARow (p : Prog) : Bool := match p.stages.getLast? with
  | some w => isReduce w && !stBcast w
  | none => false

/-- log2(e) rounded to the working format (R187). -/
def log2e (wf : Nat) : Nat := match wf with
  | 0 => 0x1FDC5
  | 1 => 0x3FB8AA3B
  | _ => 0x3FF71547652B82FE

/-- The exact sum of a row rounded once (R185). -/
def FFmt.sumRow (F : FFmt) (rm : Rm) (xs : List Nat) : Nat × Fl :=
  let lanes := xs.map (fun x => laneProduct F.qmin (F.dec x) Val.one)
  (laneSum lanes).toFloat F rm false F.qmin

/-- An encoding in a rising list without repeats. -/
def insertUp (x : Nat) : List Nat → List Nat
  | [] => [x]
  | y :: ys => if x < y then x :: y :: ys else if x = y then y :: ys else y :: insertUp x ys

/-- The quiet NaNs that a row's NaN elements give, rising and without repeats. -/
def FFmt.rowNans (F : FFmt) (xs : List Nat) : List Nat :=
  xs.foldl (fun (l : List Nat) x => match F.nanOf [F.dec x] with
    | some r => insertUp r.1 l
    | none => l) []

/-- The maximum or minimum of a row (R185). Of several NaNs with different payloads R185 forbids the first in row order
and names no other: one of them, open, that the set of them decides (log entry 26). -/
def FFmt.extRow (F : FFmt) (isMax : Bool) (empty : Nat) (xs : List Nat) : Nat × Fl :=
  match F.rowNans xs with
  | n :: ns => (((n :: ns)[Config.rowNan F.width (n :: ns) % (ns.length + 1)]?).getD n,
      { nv := xs.any (fun x => (F.dec x).isSig) })
  | [] => match xs with
    | [] => (empty, {})
    | x :: rest => (rest.foldl (fun (acc : Nat) y => (F.minmax isMax acc y).1) x, {})

/-- SOFTMAX of a row; `live` marks the unmasked positions (R187). -/
def FFmt.softmax (F : FFmt) (wf : Nat) (xs : List Nat) (live : List Bool) : ChainOut :=
  let pos := xs.zip live
  let u := (pos.filter (·.2)).map (·.1)
  let z := F.zero false
  if u.any (fun x => (F.dec x).isNan) then
    ⟨pos.map (fun p => if p.2 then F.dnan else z), { nv := u.any (fun x => (F.dec x).isSig) }, 0⟩
  else
    let isInf := fun x => decide (F.dec x = .inf false)
    let k := (u.filter isInf).length
    if 1 ≤ k then
      let kv := F.round .rne false false k 0
      let r := F.recip kv.1
      ⟨pos.map (fun p => if p.2 && isInf p.1 then r.1 else z), kv.2.or r.2, 0⟩
    else if u.all (fun x => decide (F.dec x = .inf true)) then ⟨pos.map (fun _ => z), {}, 1⟩
    else
      let m := (F.extRow true z u).1
      let l := F.dec (log2e wf)
      let es := u.map (fun x =>
        let d : Nat × Fl := match F.dec x, F.dec m, l with
          | .fin a b c, .fin a' b' c', .fin _ lm le =>
            let df := addDy (signed a b, c) (signed (!a') b', c')
            F.roundInt .rne false false (df.1 * lm, df.2 + le)
          | _, _, _ => (F.join true F.infEnc, {})
        let e := F.exp2 d.1
        (e.1, d.2.or e.2))
      let sum := F.sumRow .rne (es.map (·.1))
      let r := F.recip sum.1
      let ys := pos.foldl (fun (acc : List (Nat × Fl) × List (Nat × Fl)) p =>
        if p.2 then match acc.2 with
          | e :: rest =>
            let y := F.mulV .rne false (F.dec e.1) (F.dec r.1)
            (acc.1 ++ [(y.1, e.2.or y.2)], rest)
          | [] => (acc.1 ++ [(z, ({} : Fl))], [])
        else (acc.1 ++ [(z, ({} : Fl))], acc.2)) (([] : List (Nat × Fl)), es)
      ⟨ys.1.map (·.1), ys.1.foldl (fun (f : Fl) y => f.or y.2) (sum.2.or r.2), 0⟩

/-- Element `i` of the operand that a select names (R174). -/
def Prog.sel (p : Prog) (sel ka kb pv xv yv red : Nat) : Nat := match sel with
  | 0 => pv
  | 1 => xv
  | 2 => yv
  | 3 => red
  | 4 => p.fmt.zero false
  | 5 => (p.fmt.round .rne false false 1 0).1
  | 6 => (p.k[ka]?).getD 0
  | _ => (p.k[kb]?).getD 0

/-- An element-wise stage (R175). DESIGN CHOICE (log entry 26): a CONVERT to int16, int32 or int64 that gives an integer
the working format cannot hold (R175 has it widened back exactly) rounds it under the program's mode and raises NX. -/
def Prog.elem (p : Prog) (rm : Rm) (pi : Bool) (w a b c : Nat) : Nat × Fl :=
  let F := p.fmt
  match stType w, stFunc w with
  | 0, 0 => F.fmaV rm false (F.dec a) (F.dec b) (F.dec c)
  | 0, _ => F.fmaV rm false (F.dec a).flip (F.dec b) (F.dec c)
  | 1, 0 => F.minmax true a b
  | 1, 1 => F.minmax false a b
  | 1, 2 =>
    let pr := match stOpt w with | 0 => Pred.eq | 1 => Pred.lt | 2 => Pred.le | _ => Pred.un
    let (t, f) := pr.eval (F.dec a) (F.dec b)
    (if t then c else a, f)
  | 1, _ => (a % 2 ^ (F.ebits + F.fbits), {})
  | 2, 0 => F.tableDirect p.t a
  | 2, _ => F.tableLerp rm p.t ((p.k[nfld w 11 8]?).getD 0) ((p.k[nfld w 7 4]?).getD 0) a
  | 3, _ => F.exp2 a
  | 4, _ => F.log2 a
  | 5, _ => F.recip a
  | 6, _ => F.rsqrt a
  | 7, f =>
    let k := fmtKind ((fmtOfCode f).getD .b32)
    let r := convert1 (.float F) k rm pi a
    let b := convert1 k (.float F) rm pi r.1
    (b.1, r.2.or b.2)
  | _, _ => (a, {})

/-- State of a row between stages. -/
structure RowSt where
  pv : List Nat
  red : Nat
  fl : Fl
  empty : Nat
deriving DecidableEq, Repr

/-- One stage on a row (R175, R184–R187). -/
def Prog.stage (p : Prog) (rm : Rm) (pi : Bool) (xs ys : List Nat) (st : RowSt) (w : Nat) : RowSt :=
  let F := p.fmt
  let at' := fun (l : List Nat) i => (l[i]?).getD 0
  let opnd := fun (sl i : Nat) => p.sel sl (nfld w 11 8) (nfld w 7 4) (at' st.pv i) (at' xs i) (at' ys i) st.red
  let idx := List.range xs.length
  let as := idx.map (opnd (stA w))
  let live := idx.map (fun i => !(stMask w && (F.dec (at' ys i)).isZero))
  if isSoftmax w then
    let r := F.softmax p.wf as live
    { st with pv := r.out, fl := st.fl.or r.fl, empty := st.empty + r.empty }
  else if isReduce w then
    let u := ((as.zip live).filter (·.2)).map (·.1)
    let r := match stFunc w with
      | 0 => F.sumRow rm u
      | 1 => F.extRow true (F.join true F.infEnc) u
      | _ => F.extRow false (F.join false F.infEnc) u
    if stBcast w then { st with pv := as, red := r.1, fl := st.fl.or r.2 }
    else { st with pv := [r.1], fl := st.fl.or r.2 }
  else
    let rs := idx.map (fun i => p.elem rm pi w (opnd (stA w) i) (opnd (stB w) i) (opnd (stC w) i))
    { st with pv := rs.map (·.1), fl := rs.foldl (fun (f : Fl) r => f.or r.2) st.fl }

/-- Rows of a length, the last one shorter (R180, R184). -/
def rowsOf (len : Nat) : Nat → List Nat → List (List Nat)
  | 0, _ => []
  | fuel + 1, xs => if xs = [] then [] else xs.take len :: rowsOf len fuel (xs.drop len)

/-- The chain over elements already in the working format. -/
def Prog.run (p : Prog) (rm : Rm) (pi : Bool) (xs ys : List Nat) : ChainOut :=
  let rows := (rowsOf p.rowlen xs.length xs).zip
    (if ys = [] then (rowsOf p.rowlen xs.length xs).map (fun _ => []) else rowsOf p.rowlen ys.length ys)
  rows.foldl (fun (acc : ChainOut) r =>
    let st := p.stages.foldl (p.stage rm pi r.1 r.2) ⟨r.1, 0, {}, 0⟩
    ⟨acc.out ++ st.pv, acc.fl.or st.fl, acc.empty + st.empty⟩) ⟨[], {}, 0⟩

/-- Converts a list, gathering flags. -/
def convList (f : Nat → Nat × Fl) (xs : List Nat) : List Nat × Fl :=
  let rs := xs.map f
  (rs.map (·.1), rs.foldl (fun (a : Fl) r => a.or r.2) {})

/-! The exponent histogram (R136, R137, R194). -/

/-- Counters of a record, in the order ELEMENTS, SAT, UNDER, OVER, ZERO, INF, NAN, BIN[0..63]. -/
def histCounts (fmt : Fmt) (base : Int) (w : Nat) (sat : Nat) (xs : List Nat) : List Nat :=
  let key := fun x => match valOf (fmtKind fmt) x with
    | .nan .. => 6
    | .inf _ => 5
    | .fin _ m e => if m = 0 then 4 else
      let b := ((bitLen m : Int) - 1 + e - base) / 2 ^ w
      if b < 0 then 2 else if 63 < b then 3 else 7 + b.toNat
  let ks := xs.map key
  (List.range 71).map (fun i => min 0xFFFFFFFF
    (if i = 0 then xs.length else if i = 1 then sat else (ks.filter (· = i)).length))

/-- The 320 bytes of a record. -/
def histBytes (fmt w : Nat) (flags base : Nat) (cs : List Nat) : List Byte :=
  let at' := fun (i : Nat) => leBytes 4 ((cs[i]?).getD 0)
  leBytes 1 fmt ++ leBytes 1 w ++ leBytes 1 flags ++ [0] ++ leBytes 2 base ++ leBytes 2 0
    ++ (List.range 7).flatMap at' ++ leBytes 28 0 ++ (List.range 64).flatMap (fun i => at' (7 + i))

/-- Counters added, each saturating. -/
def addCounts (a b : List Nat) : List Nat :=
  if a = [] then b else if b = [] then a else (a.zip b).map (fun p => min 0xFFFFFFFF (p.1 + p.2))

/-- The counters of values under a `TUR_HIST` (R136). -/
def histOf (fmt : Fmt) (hist : Dword) (sat : Nat) (xs : List Nat) : List Nat :=
  histCounts fmt (sext 16 (fld hist 31 16)) (fld hist 2 0) sat xs

/-- The record an operation writes for its counters, given the record found where ACCUM = 1 (R194). -/
def histRecord (fmt : Fmt) (hist : Dword) (old : List Byte) (c : List Nat) : List Byte :=
  let base := fld hist 31 16
  let w := fld hist 2 0
  let code := fmtCode fmt
  if bit hist 8 then
    let zero := decide (leAt old 3 1 = 0) && decide (leAt old 6 2 = 0) && decide (leAt old 0x24 28 = 0)
      && decide (nfld (leAt old 2 1) 7 2 = 0)
    let same := decide (leAt old 0 1 = code) && decide (leAt old 1 1 = w) && decide (leAt old 4 2 = base)
    if same && zero then
      let o := (List.range 7).map (fun i => leAt old (8 + 4 * i) 4) ++ (List.range 64).map (fun i => leAt old (0x40 + 4 * i) 4)
      histBytes code w (leAt old 2 1 ||| 1) base (addCounts c o)
    else histBytes code w 2 base c
  else histBytes code w 0 base c

end Sys2Proof.Machine
end

