-- ==== Sys2Proof/Machine/Turret.lean ====
section
/-! DEFINITION. What the Turret does with the instruction at the head of its queue, and what a drain passes through it
(R176–R183, R192, R195). -/

namespace Sys2Proof.Machine

/-- A Turret error (R195). -/
def State.turError (s : State) (t code : Nat) : ERes :=
  (false, ((s.setF (Reg.turStatErr t) 1).setF (Reg.turStatErrCode t) code).engError t .tur 20)

/-- The program of a slot; slot 0 holds the empty program (R172). -/
def Tower.prog (w : Tower) (slot : Nat) : Option Prog := (Tab.find w.turSlots slot).bind parseProg

/-- `tu.ptr`: a pointer names a tile register, or an address through a captured segment (R177, R197). -/
def State.turPtr (s : State) (t : Nat) (x : QEntry) (p : Nat) (tile : Bool) (num fmt : Nat) : ERes :=
  let v : TurPtr := { tile := tile, num := num, seg := x.seg 0, addr := x.gv 0, fmt := fmt }
  (true, s.modTw t (fun w => { w with turPtrs := Tab.set w.turPtrs p v }))

/-- A range an operation uses: where it lies, kind of access, alignment. -/
structure TurRange where
  ptr : TurPtr
  acc : Access
  len : Nat
  align : Nat
deriving DecidableEq, Repr

/-- The segment checks of R179 on ranges in order: engine fault of the first that fails. -/
def State.turSegs (s : State) (t : Nat) : List TurRange → Option State
  | [] => none
  | r :: rs =>
    match (if r.ptr.tile || r.len = 0 then none else r.ptr.seg.check r.acc r.ptr.addr.toNat r.len) with
    | some (.seg sub off) => some (s.engSegFault t .tur sub off)
    | _ => s.turSegs t rs

/-- Places of the ranges in order: pieces of the own store, or a tile's bytes (R179). -/
inductive TurPlace where
  | mem (ps : List Piece)
  | tile (n : Nat) (len : Nat)
deriving DecidableEq, Repr

/-- How the ranges resolve: all lie in the own store or in tiles; or the condition of error 0x03; or a walk met an error
response (R566), or a page being migrated; or a segment's REGION does not admit its own-store bytes (R272). -/
inductive TurPlaces where
  | ok (l : List TurPlace) (s : State)
  | range (s : State)
  | stopped (s : State)

/-- A byte that its segment's REGION does not admit lies in the Tower's own store all the same: the failure is the
segment's (R272). Elsewhere the range does not lie in the own store (R386). -/
def State.regionFault (s : State) (t r : Nat) (g : Seg) (acc : Access) (sub off : Nat) : Bool :=
  decide (sub = 4) && match (if g.phys then TrRes.ok (s.physFpa g.region (g.base + off)) else (s.translate t r acc (g.base + off)).1) with
    | .ok fpa => decide (s.place fpa = .store t)
    | _ => false

/-- Resolves the ranges (R179). -/
def State.turPlaces (s : State) (t : Nat) : List TurRange → List TurPlace → TurPlaces
  | [], done => .ok done.reverse s
  | r :: rs, done =>
    if r.ptr.tile then
      if 32768 < r.len then .range s else s.turPlaces t rs (.tile r.ptr.num r.len :: done)
    else
      match s.resolve t 4 r.ptr.seg r.acc r.ptr.addr.toNat r.len with
      | (.error (.walkErr host), s) => .stopped (s.walkFails (.tower (BitVec.ofNat 7 t)) host)
      | (.error .migWait, s) => .stopped s
      | (.error (.seg sub off), s) =>
        if s.regionFault t 4 r.ptr.seg r.acc sub off then .stopped (s.engSegFault t .tur sub off) else .range s
      | (.error _, s) => .range s
      | (.ok ps, s) =>
        if s.ownStore t ps = false ∨ (r.ptr.seg.base + r.ptr.addr.toNat) % r.align ≠ 0 then .range s
        else s.turPlaces t rs (.mem ps :: done)

/-- Two places share a byte. -/
def TurPlace.meets : TurPlace → TurPlace → Bool
  | .mem ps, .mem qs => ps.any (fun p => qs.any (fun q => overlaps p.fpa p.len q.fpa q.len))
  | .tile a n, .tile b m => decide (a = b) && decide (0 < n) && decide (0 < m)
  | _, _ => false

/-- Two places begin at the same byte. -/
def TurPlace.sameStart : TurPlace → TurPlace → Bool
  | .mem ps, .mem qs => decide (ps.head?.map (·.fpa) = qs.head?.map (·.fpa))
  | .tile a _, .tile b _ => decide (a = b)
  | _, _ => false

/-- Bytes at a place of the own store or a tile, and whether a read met an error. -/
def State.turLoad (s : State) (t : Nat) (p : TurPlace) : List Byte × Bool × State := match p with
  | .mem ps =>
    let (e, s) := s.readLocal t ps
    (s.gather [] ps, e, s)
  | .tile n len => ((s.tw t).tileBytes n 0 len, false, s)

/-- Pieces from their `n`-th byte on. -/
def dropPieces : Nat → List Piece → List Piece
  | _, [] => []
  | n, p :: ps => if p.len ≤ n then dropPieces (n - p.len) ps else ⟨p.fpa + n, p.len - n, p.dva + n⟩ :: ps

/-- Writes bytes at a place from its byte `o` on. -/
def State.turStore (s : State) (t : Nat) (p : TurPlace) (o : Nat) (bs : List Byte) : Bool × State := match p with
  | .mem ps => s.scatter t (dropPieces o ps) bs
  | .tile n _ => (false, s.tileWrite t n o bs)

/-- Records a chain's flags, saturations, empty rows and elements (R85, R187, R192). -/
def State.turCounts (s : State) (t : Nat) (o : ChainOut) : State :=
  let s := s.orFlags (Reg.turFpcsr t) o.fl
  let s := s.satF (Reg.turSatCntCount t) o.fl.sat
  let s := s.incF (Reg.turElemsElems t) o.out.length
  if o.empty = 0 then s else (s.setF (Reg.turStatEmptyrow t) 1).satF (Reg.turEmptyCntCount t) o.empty

/-- The mode a program runs under (R172). -/
def State.turRm (s : State) (t : Nat) (code : Nat) : Rm :=
  if code = 7 then rmResolve .dyn (s.f (Reg.turFpcsrRm t)) else (rmOfCode code).getD .rne

/-- `tu.prog` (R176, R195). -/
def State.turProg (s : State) (t : Nat) (x : QEntry) (slot : Nat) : ERes :=
  let r : TurRange := ⟨{ seg := x.seg 0, addr := x.gv 0 }, .read, 512, 64⟩
  match s.turSegs t [r] with
  | some s => (false, s)
  | none => match s.turPlaces t [r] [] with
    | .range s => s.turError t 3
    | .stopped s => (false, s)
    | .ok l s =>
      let (bs, e, s) := s.turLoad t ((l[0]?).getD (.tile 0 0))
      if e then (false, s.strike t)
      else match parseProg bs with
        | none => s.turError t 1
        | some _ =>
          let s := s.modTw t (fun w => { w with turSlots := Tab.set w.turSlots slot bs })
          let a := Reg.turProgv t
          (true, s.wr a (setBit (s.rd a) slot true))

/-- The elements a chain gives for source elements (R177, R181). `prog` is none for slot 0. -/
def turChain (prog : Option Prog) (rm : Rm) (pi : Bool) (src bfmt dst : Fmt) (xs ys : List Nat) : ChainOut :=
  match prog with
  | none =>
    let r := convList (convert src dst rm pi) xs
    ⟨r.1, r.2, 0⟩
  | some p =>
    let F := FmtKind.float p.fmt
    let cx := convList (convert1 (fmtKind src) F rm pi) xs
    let cy := convList (convert1 (fmtKind bfmt) F rm pi) ys
    let o := p.run rm pi cx.1 cy.1
    let cd := convList (convert1 F (fmtKind dst) rm pi) o.out
    ⟨cd.1, ((cx.2.or cy.2).or o.fl).or cd.2, o.empty⟩

/-- A pointer after an operation (R178). -/
def TurPtr.advance (p : TurPtr) (n : Nat) : TurPtr := if p.tile then p else { p with addr := p.addr + BitVec.ofNat 64 n }

/-- The Dome queue's drain is in the chain: it has begun to write (R181, R183). -/
def Tower.draining (w : Tower) : Bool := match w.qDom with
  | x :: _ => (match x.kind with | .insn (.dmDrain ..) => true | _ => false) && (w.planOf 2 x).isSome
  | [] => false

/-- The pointers that a `tu.run` of a slot uses (R177, R179). -/
def Tower.runPtrs (w : Tower) (slot : Nat) (hist : Bool) : List Nat :=
  [0] ++ (if ((w.prog slot).map Prog.usesY).getD false then [1] else []) ++ [2] ++ (if hist then [3] else [])

/-- Pointers capture their segments afresh (R299). -/
def Tower.recapturePtrs (w : Tower) (l : List Nat) : Tower :=
  overList l (fun i (w : Tower) =>
    let p := Tab.get {} w.turPtrs i
    if p.tile then w else { w with turPtrs := Tab.set w.turPtrs i { p with seg := Tab.get {} w.core.segs p.num } }) w

/-- What a `tu.run` has ready: the places of its operands, formats, program, mode, and the histogram record found. -/
structure TurJob where
  a : TurPlace
  b : Option TurPlace
  d : TurPlace
  h : Option TurPlace
  fa : Fmt
  fb : Fmt
  fd : Fmt
  prog : Option Prog
  oneARow : Bool
  rowlen : Nat
deriving DecidableEq, Repr

/-- Elements `lo` to `hi − 1` of a `tu.run`: the rows' inputs are read, and the rows' outputs written (R177, R180). It
gives the chain's results; none where an access met an error response, which strikes the step. -/
def State.turRows (s : State) (t : Nat) (j : TurJob) (lo hi : Nat) : Option ChainOut × State :=
  let (ba, e1, s) := s.turLoad t j.a
  let (bb, e2, s) := match j.b with
    | some p => s.turLoad t p
    | none => ([], false, s)
  let (bd, _, _) := s.turLoad t j.d
  if e1 || e2 then (none, s.strike t)
  else
    let rm := match j.prog with
      | some p => s.turRm t p.rm
      | none => s.turRm t 7
    let xs := (elems (fmtBits j.fa) ba hi).drop lo
    let ys := if j.b.isSome then (elems (fmtBits j.fb) bb hi).drop lo else []
    let o := turChain j.prog rm (s.fb (Reg.turModeP16inf t)) j.fa j.fb j.fd xs ys
    let bits := fmtBits j.fd
    let before := if j.oneARow then ceilDiv lo j.rowlen else lo
    let at' := before * bits / 8
    let all := packElems bits bd (elems bits bd before ++ o.out)
    let (e3, s) := s.turStore t j.d at' (all.drop at')
    if e3 then (none, s.strike t) else (some o, s.turCounts t o)

/-- A `tu.run` ends: the histogram record is written and the pointers advance (R178, R194). -/
def State.turEnd (s : State) (t : Nat) (j : TurJob) (count : Nat) (counts : List Nat) : ERes :=
  let nOut := if j.oneARow then ceilDiv count j.rowlen else count
  let hist := s.rd (Reg.turHist t)
  let (e, s) : Bool × State := match j.h with
    | none => (false, s)
    | some p =>
      let (old, e, s) := if bit hist 8 then s.turLoad t p else ([], false, s)
      if e then (true, s) else s.turStore t p 0 (histRecord j.fd hist old counts)
  if e then (false, s.strike t)
  else
    let ptrs := (s.tw t).turPtrs
    let ptr := fun i => Tab.get {} ptrs i
    let p1 := Tab.set ptrs 0 ((ptr 0).advance (elemBytes (fmtBits j.fa) count))
    let p2 := if j.b.isSome then Tab.set p1 1 ((ptr 1).advance (elemBytes (fmtBits j.fb) count)) else p1
    let p3 := Tab.set p2 2 ((ptr 2).advance (elemBytes (fmtBits j.fd) nOut))
    (true, s.modTw t (fun w => { w with turPtrs := p3, turPart := none }))

/-- `tu.run` (R177–R180, R183, R194, R196), up to `limit` rows from where a preemption stopped it: with fewer rows than
are left it stops there. A drain in the chain is awaited. An empty slot is found before the ranges that its program decides
(log entry 27). -/
def State.turRun (s : State) (t slot count : Nat) (hist : Bool) (limit : Option Nat) : ERes :=
  let w := s.tw t
  let prog := w.prog slot
  if w.draining then (false, s)
  else if slot ≠ 0 ∧ prog = none then s.turError t 2
  else
    let ptr := fun i => Tab.get {} w.turPtrs i
    let fm := fun i => (fmtOfCode (ptr i).fmt).getD .pip8a
    let useB := (prog.map Prog.usesY).getD false
    let oneARow := (prog.map Prog.oneARow).getD false
    let rowlen := (prog.map (·.rowlen)).getD 4096
    let nOut := if oneARow then ceilDiv count rowlen else count
    let bytes := fun i n => elemBytes (fmtBits (fm i)) n
    let al := fun i => max 1 (fmtBits (fm i) / 8)
    let rA : TurRange := ⟨ptr 0, .read, bytes 0 count, al 0⟩
    let rB : List TurRange := if useB then [⟨ptr 1, .read, bytes 1 count, al 1⟩] else []
    let rD : TurRange := ⟨ptr 2, .write, bytes 2 nOut, al 2⟩
    let rH : List TurRange := if hist then [⟨ptr 3, .write, 320, 64⟩] else []
    let rHr : List TurRange := if hist && bit (s.rd (Reg.turHist t)) 8 then [⟨ptr 3, .read, 320, 64⟩] else []
    let all := [rA] ++ rB ++ [rD] ++ rH ++ rHr
    match s.turSegs t all with
    | some s => (false, s)
    | none => match s.turPlaces t all [] with
      | .range s => s.turError t 3
      | .stopped s => (false, s)
      | .ok l s =>
        let at' := fun (i : Nat) => (l[i]?).getD (.tile 8 0)
        let pA := at' 0
        let pB := if useB then at' 1 else .tile 8 0
        let pD := at' (if useB then 2 else 1)
        let pH := if hist then at' (if useB then 3 else 2) else .tile 9 0
        let okD := (!pD.meets pA || (pD.sameStart pA && decide (fmtBits (fm 2) ≤ fmtBits (fm 0)))) && !pD.meets pB
        let okH := !hist || (!pH.meets pA && !pH.meets pB && !pH.meets pD)
        if !(okD && okH) then s.turError t 4
        else
          let j : TurJob := ⟨pA, if useB then some pB else none, pD, if hist then some pH else none, fm 0, fm 1, fm 2, prog,
            oneARow, rowlen⟩
          let part := w.turPart.getD ⟨0, []⟩
          let stop := match limit with
            | some n => min count (part.next + n * rowlen)
            | none => count
          match s.turRows t j part.next stop with
          | (none, s) => (false, s)
          | (some o, s) =>
            let counts := if hist then addCounts part.counts (histOf (fm 2) (s.rd (Reg.turHist t)) o.fl.sat o.out) else []
            if stop < count then
              (false, (s.setF (Reg.turResumeNext t) stop).modTw t (fun w => { w with turPart := some ⟨stop, counts⟩ }))
            else s.turEnd t j count counts

/-- At a preemption the `tu.run` at the head of the queue, if it could run, has completed some of its rows, a number that no
rule states (R196; log entry 6). The flag says that it completed. -/
def State.turHalt (s : State) (t : Nat) : ERes :=
  let w := s.tw t
  match w.qTur, w.sTur with
  | x :: _, .running => match x.kind with
    | .insn (.tuRun _ _ slot count hist) =>
      let (v, s) := s.free
      let rows := v.toNat % 65536
      if rows = 0 then (false, s) else s.turRun t slot.toNat count.toNat hist (some rows)
    | _ => (false, s)
  | _, _ => (false, s)

/-- What a drain's program is: slot 0, a program the drain may use, or a configuration error (R182). -/
inductive DrainProg where
  | plain
  | prog (p : Prog)
  | bad
deriving DecidableEq, Repr

def Tower.drainProg (w : Tower) (k : Nat) : DrainProg :=
  if k = 0 then .plain
  else if 32 ≤ k then .bad
  else match w.prog k with
    | none => .bad
    | some p => if p.usesY then .bad else .prog p

/-- The elements a drain writes (R128, R129, R181). -/
def State.drainChain (s : State) (t : Nat) (prog : DrainProg) (rmCode : Nat) (dst : Fmt) (unit : Int)
    (lanes : List Lane) : ChainOut :=
  let pi := s.fb (Reg.turModeP16inf t)
  match prog with
  | .prog p =>
    let rm := s.turRm t p.rm
    let x := convList (fun (i : Nat) => ((lanes[i]?).getD Lane.zero).toFloat p.fmt rm pi unit) (List.range lanes.length)
    let o := p.run rm pi x.1 []
    let d := convList (convert1 (.float p.fmt) (fmtKind dst) rm pi) o.out
    ⟨d.1, (x.2.or o.fl).or d.2, o.empty⟩
  | _ =>
    let rm := s.turRm t rmCode
    let x := convList (fun (i : Nat) => ((lanes[i]?).getD Lane.zero).toFmt (fmtKind dst) rm pi unit) (List.range lanes.length)
    ⟨x.1, x.2, 0⟩

end Sys2Proof.Machine
end

