-- ==== Sys2Proof/Machine/Dome.lean ====
section
/-! DEFINITION. What the Dome does with the instruction at the head of its queue (04_dome.md). -/

namespace Sys2Proof.Machine

/-- Granules of a tile (R118). -/
def granulesOf (cls m n : Nat) : Nat := match laneClass cls with
  | some c => ceilDiv (m * n * c.width) 8192
  | none => 0
def DomeTile.granules (d : DomeTile) : Nat := granulesOf d.cls d.m d.n

/-- Granules that the configured tiles other than `d` leave free (R121). -/
def Tower.domFree (w : Tower) (d : Option Nat) : Nat :=
  512 - ((w.dome.filter (fun e => decide (d ≠ some e.1))).map (fun e => e.2.granules)).foldl (· + ·) 0

/-- A Dome error on a tile found by engine `e` (R138, R139). -/
def State.domError (s : State) (t : Nat) (e : Eng) (d : Nat) (hazard : Bool) : ERes :=
  let s := s.setF (if hazard then Reg.domStatHazard t else Reg.domStatCfgErr t) 1
  (false, (s.setF (Reg.domStatErrTile t) d).engError t e 18)

/-- Pending Spire instructions that add into a tile (R138). -/
def Tower.spireCount (w : Tower) (d : Nat) : Nat :=
  (w.qSpr.filter (fun x => match x.kind with
    | .insn (.spMm _ _ r _ _ _) => decide (r.toNat = d)
    | _ => false)).length

/-- Lanes became exhausted in a tile (R126). -/
def State.domGuard (s : State) (t d n : Nat) : State :=
  if n = 0 then s else
  let s := (s.setF (Reg.domStatGuard t) 1).satF (Reg.domGuardCntCount t) n
  s.modTw t (fun w => { w with dome := w.dome.map (fun e => if e.1 = d then (e.1, { e.2 with guard := true }) else e) })

/-- Adds a term to a lane: the tile, and one more if the lane became exhausted (R115, R126). -/
def DomeTile.addAt (c : LaneClass) (a : DomeTile × Nat) (i : Nat) (x : Lane) : DomeTile × Nat :=
  let o := Tab.get Lane.zero a.1.lanes i
  let r := Lane.add c.width o x
  ({ a.1 with inuse := true, lanes := Tab.set a.1.lanes i r },
   a.2 + b2n (decide (r.st = .exhausted) && decide (o.st ≠ .exhausted)))

/-- Writes a lane. A preload that leaves a lane exhausted counts in `DOM_GUARD_CNT` even where the lane was exhausted before:
R126 counts lanes that become exhausted and does not say (DESIGN CHOICE, log entry 44). -/
def DomeTile.setAt (a : DomeTile × Nat) (i : Nat) (x : Lane) : DomeTile × Nat :=
  ({ a.1 with inuse := true, lanes := Tab.set a.1.lanes i x }, a.2 + b2n (decide (x.st = .exhausted)))

/-- Applies terms by lane number, then the guard's effects. -/
def State.domTerms (s : State) (t d : Nat) (c : LaneClass) (tile : DomeTile) (replace : Bool)
    (terms : List (Nat × Lane)) : State :=
  let r := terms.foldl (fun (a : DomeTile × Nat) x => if replace then DomeTile.setAt a x.1 x.2 else DomeTile.addAt c a x.1 x.2) (tile, 0)
  (s.modTw t (fun w => { w with dome := Tab.set w.dome d r.1 })).domGuard t d r.2

/-- A cleared tile (R116, R122). -/
def DomeTile.clear (d : DomeTile) : DomeTile := { d with inuse := false, guard := false, lanes := [] }

/-- `dm.cfg` (R119, R121, R140). -/
def State.domCfg (s : State) (t d cls m n : Nat) : ERes :=
  match laneClass cls with
  | none => s.domError t .dom d false
  | some c =>
    if c.side < n ∨ (s.tw t).domFree (some d) < granulesOf cls m n then s.domError t .dom d false
    else (true, s.modTw t (fun w => { w with dome := Tab.set w.dome d ⟨cls, m, n, false, false, []⟩ }))

/-- The pieces of a Dome instruction's one range: resolved once, before its data moves (R387). -/
def State.domPieces (s : State) (t : Nat) (x : QEntry) (acc : Access) (n : Nat) : Option (List Piece) × State :=
  match (s.tw t).planOf 2 x with
  | some p => (some (p.parts.flatMap (·.2)), s)
  | none => match s.resolve t 3 (x.seg 0) acc (x.gv 0).toNat n with
    | (.error e, s) => (none, s.engFail t .dom 2 acc e)
    | (.ok ps, s) => (some ps, s.putPlan t 2 { serial := x.serial, parts := [(0, ps)] })

/-- The preload instructions (R123–R125). -/
def State.domLoad (s : State) (t : Nat) (x : QEntry) (d : Nat) (c : LaneClass) (tile : DomeTile) (fmt : Fmt) (rm : Rm)
    (src : Option Nat) (replace : Bool) : ERes :=
  let sz := fmtBits fmt / 8
  let cnt := tile.m * tile.n
  let finish := fun (bs : List Byte) (s : State) =>
    let r := rmResolve rm (s.f (Reg.domFpcsrRm t))
    let ts := (elems (fmtBits fmt) bs cnt).map (fun e => preloadTerm c r (valOf (fmtKind fmt) e))
    let fl := ts.foldl (fun (f : Fl) e => f.or e.2) {}
    let s := s.domTerms t d c tile replace ((List.range cnt).zip (ts.map (·.1)))
    (true, s.orFlags (Reg.domFpcsr t) fl)
  match src with
  | some n =>
    if 128 < tile.m ∨ 256 < tile.n * sz then s.domError t .dom d false
    else finish ((List.range tile.m).flatMap (fun r => (s.tw t).tileBytes n (256 * r) (tile.n * sz))) s
  | none =>
    match s.domPieces t x .read (cnt * sz) with
    | (none, s) => (false, s)
    | (some ps, s) => match s.engRead t 2 ps with
      | (none, s) => (false, s)
      | (some bs, s) => finish bs (s.ungate t 2)

/-- A control word breaks R141, R142 or R182, or its tile destination breaks R130. -/
def Tower.drainBad (w : Tower) (tile : DomeTile) (cw : Dword) : Bool :=
  let f := fun hi lo => fld cw hi lo
  let sz := match fmtOfCode (f 3 0) with | some k => fmtBits k / 8 | none => 0
  decide (f 63 40 ≠ 0) || decide (f 31 24 ≠ 0) || decide (2 ≤ f 20 19) || decide (f 15 11 ≠ 0) || decide (f 10 8 = 5)
    || decide (f 10 8 = 6) || decide (f 7 4 ≠ 0) || decide (6 ≤ f 3 0)
    || decide (w.drainProg (f 39 32) = .bad)
    || (decide (f 20 19 = 1) && (decide (128 < tile.m) || decide (256 < tile.n * sz)))

/-- A drain writes its elements and its record, and ends (R128–R131, R136, R181). In a tile register the outputs fill row
after row, N to a row: no rule states where they go when the program's reduction leaves fewer than M × N (DESIGN CHOICE, log
entry 43). -/
def State.domDrainData (s : State) (t : Nat) (x : QEntry) (d : Nat) (tile : DomeTile) (p : Plan) : ERes :=
  let cw := x.gv 1
  let fmt := (fmtOfCode (fld cw 3 0)).getD .b32
  let sz := fmtBits fmt / 8
  let o := p.chain
  let toTile := decide (fld cw 20 19 = 1)
  let pl := fun (i : Nat) => ((p.parts[i]?).getD (0, [])).2
  match s.engRead t 2 (pl 2) with
  | (none, s) => (false, s)
  | (some old, s) =>
    let out := packElems (fmtBits fmt) [] o.out
    let rec' := if bit cw 21 then histRecord fmt p.hist old (histOf fmt p.hist o.fl.sat o.out) else []
    match s.engWrite t 2 (readReqs (pl 2)) (pl 0 ++ pl 1) ((if toTile then [] else out) ++ rec') with
    | (false, s) => (false, s)
    | (true, s) =>
      let row := tile.n * sz
      let s := if toTile then
          overList (List.range (ceilDiv out.length row)) (fun r s =>
            s.tileWrite t (fld cw 18 16) (256 * r) ((out.drop (r * row)).take row)) s
        else s
      let s := s.turCounts t o
      let dm := (s.tw t).dome
      let dm := if bit cw 23 then Tab.del dm d else if bit cw 22 then Tab.set dm d tile.clear else dm
      (true, s.modTw t (fun w => { w with dome := dm }))

/-- `dm.drain` (R128–R131, R136, R142, R181): the elements pass the Turret once, under its registers as they stand when the
drain begins there. It waits for a `tu.run` that a preemption stopped part-way (R183). A histogram record stands behind the bytes
written, rounded up to 64: DESIGN CHOICE (log entry 43), R136 names the tensor's size, and a program that ends in a REDUCE writes
fewer elements than the tile has lanes. -/
def State.domDrain (s : State) (t : Nat) (x : QEntry) (d : Nat) (c : LaneClass) (tile : DomeTile) : ERes :=
  let cw := x.gv 1
  let w := s.tw t
  match w.planOf 2 x with
  | some p => s.domDrainData t x d tile p
  | none =>
    if w.drainBad tile cw then s.domError t .dom d false
    else if w.turPart.isSome ∧ w.sTur ≠ .error then (false, s)
    else
      let fmt := (fmtOfCode (fld cw 3 0)).getD .b32
      let lanes := (List.range (tile.m * tile.n)).map (Tab.get Lane.zero tile.lanes)
      let o := s.drainChain t (w.drainProg (fld cw 39 32)) (fld cw 10 8) fmt c.unit lanes
      let bytes := o.out.length * (fmtBits fmt / 8)
      let addr := (x.gv 0).toNat
      let toTile := decide (fld cw 20 19 = 1)
      let hist := bit cw 21
      let hAt := if toTile then addr else addr + roundUp bytes 64
      let accum := hist && bit (s.rd (Reg.turHist t)) 8
      let sg := x.seg 0
      let rs : List Range := [⟨sg, .write, addr, if toTile then 0 else bytes⟩, ⟨sg, .write, hAt, if hist then 320 else 0⟩,
        ⟨sg, .read, hAt, if accum then 320 else 0⟩]
      match s.resolveAll t 3 rs [] with
      | (.error e, s) => (false, s.engFail t .dom 2 e.1 e.2)
      | (.ok l, s) =>
        let p : Plan :=
          { serial := x.serial, parts := (List.range l.length).zip l, chain := o, hist := s.rd (Reg.turHist t) }
        (s.putPlan t 2 p).domDrainData t x d tile p

/-- `dm.xout` (R133, R134). -/
def State.domXout (s : State) (t : Nat) (x : QEntry) (tile : DomeTile) : ERes :=
  let bs := laneBlock tile.cls tile.m tile.n ((List.range (tile.m * tile.n)).map (Tab.get Lane.zero tile.lanes))
  match s.domPieces t x .write bs.length with
  | (none, s) => (false, s)
  | (some ps, s) => s.engWrite t 2 [] ps bs

/-- `dm.xadd` (R135): the header is read first, since it gives the block's length; a block of 32 bytes has no more. -/
def State.domXadd (s : State) (t : Nat) (x : QEntry) (d : Nat) (c : LaneClass) (tile : DomeTile) : ERes :=
  let o := (x.gv 0).toNat
  let bad := fun (s : State) => (s.ungate t 2).domError t .dom d false
  let finish := fun (bs : List Byte) (s : State) => match blockLanes tile.cls tile.m tile.n bs with
    | none => bad s
    | some xs => (true, (s.ungate t 2).domTerms t d c tile false ((List.range xs.length).zip xs))
  match s.domPieces t x .read 32 with
  | (none, s) => (false, s)
  | (some ps, s) => match s.engRead t 2 ps with
    | (none, s) => (false, s)
    | (some h, s) =>
      let len := leAt h 8 4
      if len < 32 ∨ 32 + tile.m * tile.n * (8 + 8 * c.words) < len then bad s
      else if len ≤ h.length then finish (h.take len) s
      else match s.resolve t 3 (x.seg 0) .read (o + 32) (len - 32) with
        | (.error e, s) => (false, (s.ungate t 2).engFail t .dom 2 .read e)
        | (.ok qs, s) =>
          let s := s.putPlan t 2 { serial := x.serial, parts := [(0, ps), (1, qs)] }
          match s.engRead t 2 (ps ++ qs) with
          | (none, s) => (false, s)
          | (some bs, s) => finish (bs.take len) s

/-- A Dome instruction other than `dm.cfg` begins: first an unconfigured tile, then the hazard (R138, R139). One that has
begun goes on. -/
def State.domBegin (s : State) (t d : Nat) (f : LaneClass → DomeTile → State → ERes) : ERes :=
  match Tab.find (s.tw t).dome d with
  | none => s.domError t .dom d false
  | some tile =>
    if (s.tw t).spireCount d ≠ 0 ∧ (s.tw t).begun.contains (Eng.num .dom) = false then s.domError t .dom d true
    else match laneClass tile.cls with
      | some c => f c tile (s.start t .dom)
      | none => s.domError t .dom d false

/-- What the Dome does with an instruction (R140). -/
def State.domRun (s : State) (t : Nat) (x : QEntry) (i : Instr) : ERes :=
  match i with
  | .dmCfg _ _ d cls m n =>
    if (s.tw t).spireCount d.toNat ≠ 0 then s.domError t .dom d.toNat true
    else s.domCfg t d.toNat cls.toNat (m.toNat + 1) (n.toNat + 1)
  | .dmFree _ _ d => s.domBegin t d.toNat (fun _ _ s => (true, s.modTw t (fun w => { w with dome := Tab.del w.dome d.toNat })))
  | .dmClr _ _ d => s.domBegin t d.toNat (fun _ tile s =>
      (true, s.modTw t (fun w => { w with dome := Tab.set w.dome d.toNat tile.clear })))
  | .dmLd _ _ d _ _ fmt rm src tile => s.domBegin t d.toNat (fun c dt s =>
      s.domLoad t x d.toNat c dt fmt rm (if src then some tile.toNat else none) true)
  | .dmLdadd _ _ d _ _ fmt rm src tile => s.domBegin t d.toNat (fun c dt s =>
      s.domLoad t x d.toNat c dt fmt rm (if src then some tile.toNat else none) false)
  | .dmDrain _ _ d _ _ _ => s.domBegin t d.toNat (fun c dt s => s.domDrain t x d.toNat c dt)
  | .dmXout _ _ d _ _ => s.domBegin t d.toNat (fun _ dt s => s.domXout t x dt)
  | .dmXadd _ _ d _ _ => s.domBegin t d.toNat (fun c dt s => s.domXadd t x d.toNat c dt)
  | _ => (true, s)

end Sys2Proof.Machine
end

