-- ==== Sys2Proof/Machine/Spire.lean ====
section
/-! DEFINITION. What the Spire does with the instruction at the head of its queue, and filler work (05_spire.md). -/

namespace Sys2Proof.Machine

/-- The Dome class that a pair of formats gives (R148); none for an invalid pair. -/
def spireClass (w f : Nat) : Option Nat :=
  if w = f ∧ w < 6 then some w
  else if (w = 0 ∧ f = 1) ∨ (w = 1 ∧ f = 0) then some 1 else none

/-- Array side of a format (R144). -/
def sideOf (fmt : Nat) : Nat := ((laneClass fmt).map (·.side)).getD 0
/-- Bytes of an element of a Spire format. -/
def spBytes (fmt : Nat) : Nat := ((fmtOfCode fmt).map (fun f => fmtBits f / 8)).getD 1

/-- A Spire error (R163). -/
def State.sprError (s : State) (t code : Nat) : ERes :=
  (false, ((s.setF (Reg.sprStatCfgErr t) 1).setF (Reg.sprStatErrCode t) code).engError t .spr 17)

/-- `sp.cfg` (R148, R162). -/
def State.sprCfg (s : State) (t : Nat) (v : Dword) : ERes :=
  if fld v 63 16 ≠ 0 ∨ fld v 7 6 ≠ 0 ∨ fld v 3 1 ≠ 0 ∨ fld v 5 4 = 3
      ∨ spireClass (fld v 11 8) (fld v 15 12) = none then s.sprError t 5
  else
    let old := s.rd (Reg.sprCfg t)
    let s := s.wr (Reg.sprCfg t) v
    if fld old 11 8 ≠ fld v 11 8 ∨ fld old 0 0 ≠ fld v 0 0 then
      (true, s.modTw t (fun w => { w with active := none, shadow := none }))
    else (true, s)

/-- The stationary operand of source rows, each a list of elements (R147). -/
def latchOf (k n wfmt : Nat) (stat : Bool) (rows : List (List Nat)) : Latch :=
  let put := fun (t : Tab Dword) (r c v : Nat) => Tab.set t (r * 128 + c) (BitVec.ofNat 64 v)
  let el := ((List.range rows.length).zip rows).foldl (fun (t : Tab Dword) r =>
    ((List.range r.2.length).zip r.2).foldl (fun (t : Tab Dword) e =>
      if stat then put t e.1 r.1 e.2 else put t r.1 e.1 e.2) t) []
  ⟨k, n, wfmt, stat, el⟩

/-- Shape of a load: source rows and elements in each (R167). -/
def loadShape (stat : Bool) (k n : Nat) : Nat × Nat := if stat then (n, k) else (k, n)

/-- `sp.lds` (R150, R152, R163). -/
def State.sprLds (s : State) (t ts k n : Nat) : ERes :=
  let w := s.tw t
  if w.shadow.isSome then (false, s)
  else
    let wf := s.f (Reg.sprCfgWfmt t)
    let stat := s.fb (Reg.sprCfgStat t)
    let (rows, per) := loadShape stat k n
    let rb := per * spBytes wf
    if sideOf wf < k ∨ sideOf wf < n ∨ 256 < rb ∨ 128 < rows then s.sprError t 4
    else
      let rowv := fun r => elems (8 * spBytes wf) (w.tileBytes ts (256 * r) rb) per
      (true, s.modTw t (fun w => { w with shadow := some (latchOf k n wf stat ((List.range rows).map rowv)) }))

/-- `sp.ldsm` (R150–R152, R163, R164, R386). Two points that the rules leave open are choices of the model (DESIGN CHOICE,
log entry 46): the conditions of errors 0x04 and 0x06, here and in `sp.lds`, are looked at once the load can start, which is
when the shadow set is empty; and the address that must be aligned to the element size is that of source row 0, the
segment's BASE plus gA. -/
def State.sprLdsm (s : State) (t : Nat) (x : QEntry) : ERes :=
  let w := s.tw t
  let v := x.gv 1
  if w.shadow.isSome then (false, s)
  else if fld v 63 40 ≠ 0 ∨ fld v 15 15 ≠ 0 ∨ fld v 7 7 ≠ 0 then s.sprError t 6
  else
    let wf := s.f (Reg.sprCfgWfmt t)
    let stat := s.fb (Reg.sprCfgStat t)
    let k := fld v 6 0 + 1
    let n := fld v 14 8 + 1
    let pitch := fld v 39 16
    let (rows, per) := loadShape stat k n
    let rb := per * spBytes wf
    let a := (x.gv 0).toNat
    let sg := x.seg 0
    if sideOf wf < k ∨ sideOf wf < n ∨ 256 < rb ∨ pitch < rb ∨ (sg.base + a) % spBytes wf ≠ 0 then s.sprError t 4
    else
      let len := (rows - 1) * pitch + rb
      let s := s.start t .spr
      match s.resolve t 5 sg .read a len with
      | (.error (.seg sub off), s) =>
        if sub ≠ 4 ∨ s.regionFault t 5 sg .read sub off = true then (false, s.engSegFault t .spr sub off) else s.sprError t 4
      | (.error (.walkErr host), s) => (false, s.walkFails (.tower (BitVec.ofNat 7 t)) host)
      | (.error .migWait, s) => (false, s)
      | (.error _, s) => s.sprError t 4
      | (.ok ps, s) =>
        if s.ownStore t ps = false then s.sprError t 4
        else
          let (e, s) := s.readLocal t ps
          if e then (false, s.strike t)
          else
            let bs := s.gather [] ps
            let rowv := fun r => elems (8 * spBytes wf) ((bs.drop (r * pitch)).take rb) per
            (true, s.modTw t (fun w => { w with shadow := some (latchOf k n wf stat ((List.range rows).map rowv)) }))

/-- Dome instructions pushed before an entry that name a tile (R138; log entry 24). -/
def Tower.domeCount (w : Tower) (d serial : Nat) : Nat :=
  (w.qDom.filter (fun x => decide (x.serial < serial) && match x.kind with
    | .insn (.dmCfg _ _ r _ _ _) | .insn (.dmFree _ _ r) | .insn (.dmClr _ _ r) | .insn (.dmDrain _ _ r _ _ _)
    | .insn (.dmXout _ _ r _ _) | .insn (.dmXadd _ _ r _ _) => decide (r.toNat = d)
    | .insn (.dmLd _ _ r _ _ _ _ _ _) => decide (r.toNat = d)
    | .insn (.dmLdadd _ _ r _ _ _ _ _ _) => decide (r.toNat = d)
    | _ => false)).length

/-- Consecutive groups of a size. -/
def groupsOf {α : Type} (g : Nat) : Nat → List α → List (List α)
  | 0, _ => []
  | fuel + 1, xs => if xs.isEmpty then [] else xs.take g :: groupsOf g fuel (xs.drop g)

/-- The group sums that one streamed row adds, by lane: column n of row `row` of the tile (R114, R145, R149). -/
def rowTerms (c : LaneClass) (g : Nat) (la : Latch) (sf : FmtKind) (wf : FmtKind) (tileN row : Nat) (sv : List Nat) :
    List (Nat × Lane) :=
  (List.range la.n).flatMap (fun n =>
    let ps := (List.range la.k).map (fun k => laneProduct c.unit (valOf sf ((sv[k]?).getD 0))
      (valOf wf (Tab.get 0 la.el (k * 128 + n)).toNat))
    (groupsOf g la.k ps).map (fun gr => (row * tileN + n, laneSum gr)))

/-- Tc for which an `sp.mm` waited for its shadow set, a number that the model's steps do not give (R168; log entry 18). -/
def State.shadowWait (s : State) (t : Nat) : State :=
  let (v, s) := s.free
  s.incF (Reg.sprWaitWait t) v.toNat

/-- `sp.mm` (R146, R152, R153, R163). -/
def State.sprMm (s : State) (t : Nat) (x : QEntry) (d ts : Nat) (swap : Bool) : ERes :=
  let w := s.tw t
  let v := x.gv 0
  if fld v 63 23 ≠ 0 ∨ fld v 7 7 ≠ 0 then s.sprError t 6
  else match (if swap then w.shadow else w.active) with
    | none => s.sprError t (if swap then 1 else 2)
    | some la =>
      let sf := s.f (Reg.sprCfgSfmt t)
      match Tab.find w.dome d with
      | none => s.domError t .spr d false
      | some tile =>
        match laneClass tile.cls with
        | none => s.domError t .spr d false
        | some c =>
          let m := fld v 6 0 + 1
          let drow := fld v 15 8
          let srow := fld v 22 16
          if spireClass la.wfmt sf ≠ some tile.cls then s.domError t .spr d false
          else if tile.n < la.n ∨ tile.m < drow + m ∨ 128 < srow + m then s.sprError t 3
          else if w.domeCount d x.serial ≠ 0 then s.domError t .spr d true
          else
            let g := 4 * 2 ^ (s.f (Reg.sprCfgGroup t))
            let kind := fun n => fmtKind ((fmtOfCode n).getD .pip8a)
            let terms := (List.range m).flatMap (fun i =>
              rowTerms c g la (kind sf) (kind la.wfmt) tile.n (drow + i)
                (elems (8 * spBytes sf) (w.tileBytes ts (256 * (srow + i)) (la.k * spBytes sf)) la.k))
            let s := s.domTerms t d c tile false terms
            let s := s.incF (Reg.sprRowsRows t) m
            (true, if swap then (s.modTw t (fun w => { w with active := some la, shadow := none })).shadowWait t else s)

/-- `sp.drop` (R165). -/
def State.sprDrop (s : State) (t : Nat) : ERes :=
  (true, s.modTw t (fun w => { w with active := none, shadow := none }))

/-- What the Spire does with an instruction (R166). -/
def State.sprRun (s : State) (t : Nat) (x : QEntry) (i : Instr) : ERes :=
  match i with
  | .spCfg _ _ _ => s.sprCfg t (x.gv 0)
  | .spLds _ _ ts k n => s.sprLds t ts.toNat (k.toNat + 1) (n.toNat + 1)
  | .spLdsm .. => s.sprLdsm t x
  | .spMm _ _ d ts _ swap => s.sprMm t x d.toNat ts.toNat swap
  | .spDrop .. => s.sprDrop t
  | _ => (true, s)

/-- Filler runs: R159. -/
def State.filling (s : State) (t : Nat) : Bool :=
  s.fb (Reg.sprFillEn t) && s.fb (Reg.sprFillDuty t) && decide ((s.tw t).qSpr = []) && !(s.tw t).held

/-- A filler tc: it only counts (R160). -/
def execFillerWork (t : TId) (s : State) : Out :=
  .next (if s.filling t.toNat then s.incF (Reg.sprFillCntFill t.toNat) 1 else s)

end Sys2Proof.Machine
end

