-- ==== Sys2Proof/Machine/Tiles.lean ====
section
/-! DEFINITION. What the tile engine does with the instruction at the head of its queue (07_tiles_and_tower_store.md). -/

namespace Sys2Proof.Machine

/-- Extent of a tile: rows and bytes per row (R209). -/
def State.extRows (s : State) (t n : Nat) : Nat := s.f (Reg.twrTcfgRows t n)
def State.extBytes (s : State) (t n : Nat) : Nat := s.f (Reg.twrTcfgRbytes t n)

/-- A tile error (R222). -/
def State.tileError (s : State) (t code : Nat) : ERes :=
  (false, ((s.setF (Reg.twrTstatErr t) 1).setF (Reg.twrTstatErrCode t) code).engError t .tile 21)

/-- A `tld` or `tst` stops before a row (R216, R218). -/
def State.tileHold (s : State) (t n row : Nat) : State :=
  ((s.setF (Reg.twrTstartRow t) row).setF (Reg.twrTstatStopped t) 1).setF (Reg.twrTstatStopTile t) n

/-- The tile engine stops at a row, whose access did not go through (R216). -/
def State.tileStop (s : State) (t n row : Nat) (acc : Access) (e : AccErr) : ERes :=
  match e with
  | .migWait => (false, s)
  | .walkErr host => (false, s.engFail t .tile 3 acc (.walkErr host))
  | e => (false, (s.tileHold t n row).engFail t .tile 3 acc e)

/-- The pieces of a row: resolved once, before any of its bytes moves (R216). -/
def State.rowPieces (s : State) (t : Nat) (x : QEntry) (acc : Access) (row off rb : Nat) :
    Except AccErr (List Piece) × State :=
  match ((s.tw t).planOf 3 x).filter (fun p => decide (p.row = row)) with
  | some p => (.ok (p.parts.flatMap (·.2)), s)
  | none => match s.resolve t 2 (x.seg 0) acc off rb with
    | (.error e, s) => (.error e, s)
    | (.ok ps, s) => (.ok ps, s.putPlan t 3 { serial := x.serial, parts := [(0, ps)], row := row })

/-- Moves rows of a `tld` or `tst` from row index `i` on; a row whose answers are awaited holds the instruction there
(R215–R217). A Tower whose step is preempted completes the row it moves and stops before the next (R218). -/
def State.tileRows (s : State) (t : Nat) (x : QEntry) (n a pitch row0 rb : Nat) (store : Bool) : Nat → Nat → ERes
  | 0, _ => (true, s.setF (Reg.twrTstartRow t) 0)
  | fuel + 1, i =>
    let row := row0 + i
    let acc := if store then Access.write else .read
    if !s.enginesOn t && ((s.tw t).planOf 3 x).isNone then (false, s.tileHold t n row)
    else
      let s := s.setF (Reg.twrTstartRow t) row
      match s.rowPieces t x acc row (a + i * pitch) rb with
      | (.error e, s) => s.tileStop t n row acc e
      | (.ok ps, s) =>
        if store then
          match s.engWrite t 3 [] ps ((s.tw t).tileBytes n (256 * row) rb) with
          | (false, s) => (false, s)
          | (true, s) => s.tileRows t x n a pitch row0 rb store fuel (i + 1)
        else
          match s.engRead t 3 ps with
          | (none, s) => (false, s)
          | (some bs, s) => ((s.ungate t 3).tileWrite t n (256 * row) bs).tileRows t x n a pitch row0 rb store fuel (i + 1)

/-- `tld` and `tst` (R215–R217, R222). An instruction under way goes on at `TWR_TSTART`. -/
def State.tileMem (s : State) (t : Nat) (x : QEntry) (n : Nat) (store : Bool) : ERes :=
  let v := x.gv 1
  let a := (x.gv 0).toNat
  let rows := fld v 6 0 + 1
  let row0 := fld v 14 8
  let pitch := fld v 39 16
  let rb := s.extBytes t n
  if 128 < row0 + rows then s.tileError t 1
  else if a % 8 ≠ 0 ∨ pitch % 8 ≠ 0 ∨ (store = true ∧ 1 < rows ∧ pitch < rb) then s.tileError t 2
  else if fld v 63 40 ≠ 0 ∨ fld v 15 15 ≠ 0 ∨ fld v 7 7 ≠ 0 then s.tileError t 3
  else
    let i := s.f (Reg.twrTstartRow t) - row0
    (s.start t .tile).tileRows t x n a pitch row0 rb store (rows - i) i

/-- `tmv` (R213, R222). -/
def State.tileMove (s : State) (t : Nat) (x : QEntry) (d n : Nat) : ERes :=
  let v := x.gv 0
  let rows := fld v 6 0 + 1
  let drow := fld v 14 8
  let srow := fld v 22 16
  if 128 < srow + rows ∨ 128 < drow + rows then s.tileError t 1
  else if fld v 63 23 ≠ 0 ∨ fld v 15 15 ≠ 0 ∨ fld v 7 7 ≠ 0 then s.tileError t 3
  else (true, s.tileWrite t d (256 * drow) ((s.tw t).tileBytes n (256 * srow) (256 * rows)))

/-- Bytes of a vector register (R226). -/
def Tower.vBytes (w : Tower) (r o n : Nat) : List Byte := Tab.getAll 0 w.vregs (r * 16384 + o) n

/-- Writes bytes of vector registers; each register reached is in use (R228). -/
def State.vWrite (s : State) (t r o : Nat) (bs : List Byte) : State :=
  if bs = [] then s else
  let s := s.modTw t (fun w => { w with vregs := Tab.setAll w.vregs (r * 16384 + o) bs })
  let last := r + (o + bs.length - 1) / 16384
  let a := Reg.vecInuse t
  overList (range (r + o / 16384) (last + 1 - (r + o / 16384))) (fun k s => s.wr a (setBit (s.rd a) k true)) s

/-- `tclr` (R212, R219). -/
def State.tileClear (s : State) (t n : Nat) : ERes :=
  let s := s.modTw t (fun w => { w with tiles := Tab.keep w.tiles (fun k => decide (k / 32768 ≠ n)) })
  let a := Reg.twrTstat t
  (true, s.wr a (setBit (s.rd a) (16 + n) false))

/-- What the tile engine does with an instruction (R223). -/
def State.tileRun (s : State) (t : Nat) (x : QEntry) (i : Instr) : ERes :=
  match i with
  | .tld _ _ d _ _ _ => s.tileMem t x d.toNat false
  | .tst _ _ _ _ tt _ => s.tileMem t x tt.toNat true
  | .tmv _ _ d ts _ => s.tileMove t x d.toNat ts.toNat
  | .tmvVt _ _ d v h =>
    (true, s.tileWrite t d.toNat (16384 * b2n h) ((s.tw t).vBytes v.toNat 0 16384))
  | .tmvTv _ _ v ts h =>
    (true, s.vWrite t v.toNat 0 ((s.tw t).tileBytes ts.toNat (16384 * b2n h) 16384))
  | .tclr _ _ d => s.tileClear t d.toNat
  | _ => (true, s)

end Sys2Proof.Machine
end

