-- ==== Sys2Proof/Machine/Vector.lean ====
section
/-! DEFINITION. What the long-vector unit does with the instruction at the head of its queue (08_long_vector_unit.md). -/

namespace Sys2Proof.Machine

/-- A vector error (R254). -/
def State.vecError (s : State) (t code : Nat) : ERes :=
  (false, ((s.setF (Reg.vecStatErr t) 1).setF (Reg.vecStatErrCode t) code).engError t .vec 16)

/-- Classes of formats in the table of R256. -/
def isFloat (f : Fmt) : Bool := match fmtKind f with | .float _ => true | _ => false
def isInt (f : Fmt) : Bool := match fmtKind f with | .int _ => true | _ => false
def isComplex (f : Fmt) : Bool := match fmtKind f with | .cplx _ => true | _ => false

/-- Bit `i` of a mask register (R226). -/
def Tower.mbit (w : Tower) (m i : Nat) : Bool := Tab.get false w.masks (m * 32768 + i)
def State.setMask (s : State) (t m i : Nat) (v : Bool) : State :=
  s.modTw t (fun w => { w with masks := Tab.set w.masks (m * 32768 + i) v })

/-- Elements 0 to `n − 1` of a vector register. -/
def Tower.vElems (w : Tower) (r : Nat) (f : Fmt) (n : Nat) : List Nat :=
  elems (fmtBits f) (w.vBytes r 0 (elemBytes (fmtBits f) n)) n

/-- Writes one element of a register, or of the register after it. -/
def Tower.vPut1 (w : Tower) (r bits i v : Nat) : Tower :=
  let o := r * 16384 + i * bits / 8
  if bits = 4 then
    let b := (Tab.get 0 w.vregs o).toNat
    let n := if i % 2 = 0 then b / 16 * 16 + v % 16 else b % 16 + v % 16 * 16
    { w with vregs := Tab.set w.vregs o (BitVec.ofNat 8 n) }
  else { w with vregs := Tab.setAll w.vregs o (leBytes (bits / 8) v) }

/-- Writes the elements listed; each register reached becomes in use (R228, R232). -/
def State.vPut (s : State) (t r : Nat) (f : Fmt) (xs : List (Nat × Nat)) : State :=
  let bits := fmtBits f
  let s := s.modTw t (fun w => xs.foldl (fun (w : Tower) x => w.vPut1 r bits x.1 x.2) w)
  let a := Reg.vecInuse t
  s.wr a (xs.foldl (fun (v : Dword) x => setBit v (r + x.1 * bits / 8 / 16384) true) (s.rd a))

/-- The active elements (R232). -/
def Tower.activeElems (w : Tower) (vl : Nat) (m : Bool) (k : R3) : List Nat :=
  (List.range vl).filter (fun i => !m || w.mbit k.toNat i)

/-- Records flags and saturations (R86, R238). -/
def State.vecFlags (s : State) (t : Nat) (f : Fl) : State :=
  (s.orFlags (Reg.vecFpcsr t) f).satF (Reg.vecSatCntCount t) f.sat

/-- Rounding mode and pip16 overflow of the unit. -/
def State.vecRm (s : State) (t : Nat) (rm : Rm) : Rm := rmResolve rm (s.f (Reg.vecFpcsrRm t))
def State.vecPi (s : State) (t : Nat) : Bool := s.fb (Reg.vecModeP16inf t)

/-- Operand B: a vector's elements, or a scalar converted once (R239). DESIGN CHOICE (log entry 112): with S = 1 on an instruction
without an operand B (`vsqrt`, `vabs`, `vneg`, `vmv`) the scalar is converted all the same and its flags are recorded. -/
def State.vecB (s : State) (t : Nat) (x : QEntry) (o : VArith) (f : Fmt) : (Nat → Nat) × Fl :=
  if o.sc then
    match fmtKind f with
    | .float F =>
      let r := toFloat .b64 F (s.vecRm t .dyn) (s.vecPi t) (FFmt.dec .b64 (x.q.toNat % 2 ^ 64))
      (fun _ => r.1, if x.vl = 0 then {} else r.2)
    | .int I => (fun _ => (x.gv 0).toNat % 2 ^ I.bits, {})
    | .cplx F => (fun _ => x.q.toNat % 2 ^ (2 * F.width), {})
  else
    let l := (s.tw t).vElems o.b.toNat f x.vl
    (fun i => (l[i]?).getD 0, {})

/-- The checks every vector instruction but `vspan` and `vrel` makes first (R230, R254). -/
def State.vecCheck (s : State) (t : Nat) (x : QEntry) (ok : Fmt → Bool) (go : Fmt → State → ERes) : ERes :=
  match fmtOfCode x.fmt with
  | none => s.vecError t 1
  | some f => if x.fmtBad || !ok f then s.vecError t 1 else go f s

/-- An arithmetic instruction element by element (R237–R239, R242). -/
def State.vecArith (s : State) (t : Nat) (x : QEntry) (o : VArith) (ok : Fmt → Bool) (op : LOp) : ERes :=
  s.vecCheck t x ok fun f s =>
    let w := s.tw t
    let a := w.vElems o.a.toNat f x.vl
    let d := w.vElems o.d.toNat f x.vl
    let (b, fb) := s.vecB t x o f
    let rm := s.vecRm t .dyn
    let pi := s.vecPi t
    let rs := (w.activeElems x.vl o.m o.k).map (fun i => (i, laneOp f op rm pi ((a[i]?).getD 0) (b i) ((d[i]?).getD 0)))
    let fl := rs.foldl (fun (acc : Fl) r => acc.or r.2.2) fb
    (true, (s.vPut t o.d.toNat f (rs.map (fun r => (r.1, r.2.1)))).vecFlags t fl)

/-- A compare (R233, R242). -/
def State.vecCompare (s : State) (t : Nat) (x : QEntry) (o : VArith) (ok : Fmt → Bool) (p : Pred) : ERes :=
  s.vecCheck t x ok fun f s =>
    let w := s.tw t
    let a := w.vElems o.a.toNat f x.vl
    let (b, fb) := s.vecB t x o f
    let rs := (w.activeElems x.vl o.m o.k).map (fun i => (i, lanePred f p ((a[i]?).getD 0) (b i)))
    let fl := rs.foldl (fun (acc : Fl) r => acc.or r.2.2) fb
    (true, (overList rs (fun r s => s.setMask t o.d.toNat r.1 r.2.1) s).vecFlags t fl)

/-- `vmerge` (R234). DESIGN CHOICE (log entry 112): an element passes as it is, a pip16 NaN that is not the canonical one too, as
in `vmv`; the spec does not say whether moving rounds (R238). -/
def State.vecMerge (s : State) (t : Nat) (x : QEntry) (o : VArith) : ERes :=
  s.vecCheck t x (fun _ => true) fun f s =>
    if !o.m then s.vecError t 3
    else
      let w := s.tw t
      let a := w.vElems o.a.toNat f x.vl
      let (b, fb) := s.vecB t x o f
      let xs := (List.range x.vl).map (fun i => (i, if w.mbit o.k.toNat i then (a[i]?).getD 0 else b i))
      (true, (s.vPut t o.d.toNat f xs).vecFlags t fb)

/-- The exact sum of elements of a format rounded once, by parts for a complex one; integers wrap (R240). -/
def sumElems (f : Fmt) (rm : Rm) (pi : Bool) (xs : List Nat) : Nat × Fl :=
  let fsum := fun (F : FFmt) (l : List Nat) =>
    (laneSum (l.map (fun v => laneProduct F.qmin (F.dec v) Val.one))).toFloat F rm pi F.qmin
  match fmtKind f with
  | .float F => fsum F xs
  | .int I => (trunc I.bits ((xs.map (sext I.bits)).foldl (· + ·) 0), {})
  | .cplx F => joinParts F (fsum F (xs.map (fun v => (parts F v).1))) (fsum F (xs.map (fun v => (parts F v).2)))

/-- A reduction into element 0 (R240). -/
def State.vecReduce (s : State) (t : Nat) (x : QEntry) (o : VArith) (ok : Fmt → Bool)
    (red : Fmt → Rm → Bool → Nat → List Nat → Nat × Fl) : ERes :=
  -- with no active element SUM gives element 0 of vB as it stands; MAX and MIN start from R185's empty row
  s.vecCheck t x ok fun f s =>
    if x.vl = 0 then (true, s)
    else
      let w := s.tw t
      let a := w.vElems o.a.toNat f x.vl
      let (b, fb) := s.vecB t x o f
      let act := (w.activeElems x.vl o.m o.k).map (fun i => (a[i]?).getD 0)
      let r := red f (s.vecRm t .dyn) (s.vecPi t) (b 0) act
      (true, (s.vPut t o.d.toNat f [(0, r.1)]).vecFlags t (fb.or r.2))

/-- Result of MAX or MIN over no element: ∓inf, ∓max for a format without infinities, the least or greatest integer
(R185, R240). -/
def extEmpty (isMax : Bool) (f : Fmt) : Nat := match fmtKind f with
  | .float F | .cplx F => F.join isMax (if F.kind = .pip8 then F.maxEnc else F.infEnc)
  | .int I => trunc I.bits (if isMax then intMin I.bits true else intMax I.bits true)

/-- Maximum or minimum of the active elements of vA in order and then element 0 of vB (R95, R90, R240). -/
def extElems (isMax : Bool) (f : Fmt) (b : Nat) (xs : List Nat) : Nat × Fl :=
  (xs ++ [b]).foldl (fun (acc : Nat × Fl) v =>
    let r := laneOp f (if isMax then .max else .min) .rne false acc.1 v 0
    (r.1, acc.2.or r.2)) (extEmpty isMax f, {})

/-- A destination of `bytes` bytes from register `d` breaks the rule for pairs (R241, R243). One that runs past its pair is
refused as well, with the same code: no rule says where such elements lie (DESIGN CHOICE, log entry 47). -/
def pairBad (d bytes : Nat) (srcs : List Nat) : Bool :=
  decide (16384 < bytes) && (decide (32768 < bytes) || decide (d % 2 ≠ 0) || decide (31 < d + 1)
    || srcs.any (fun a => decide (a = d) || decide (a = d + 1)))

/-- `vcvt` (R241). -/
def State.vecConvert (s : State) (t : Nat) (x : QEntry) (d a : GReg) (dst : Fmt) (rm : Rm) (m : Bool) (k : R3) : ERes :=
  s.vecCheck t x (fun f => isComplex f == isComplex dst) fun f s =>
    if pairBad d.toNat (elemBytes (fmtBits dst) x.vl) [a.toNat] then s.vecError t 2
    else
      let w := s.tw t
      let src := w.vElems a.toNat f x.vl
      let r := s.vecRm t rm
      let rs := (w.activeElems x.vl m k).map (fun i => (i, convert f dst r (s.vecPi t) ((src[i]?).getD 0)))
      let fl := rs.foldl (fun (acc : Fl) e => acc.or e.2.2) {}
      (true, (s.vPut t d.toNat dst (rs.map (fun e => (e.1, e.2.1)))).vecFlags t fl)

/-- The wide format of a source format (R243). -/
def wideFmt (f : Fmt) : Option Fmt := match f with
  | .int8 => some .int16 | .int16 => some .int32 | .int32 => some .int64
  | .pip8a | .pip8b | .pip16 => some .b32
  | .b32 => some .b64
  | _ => none

/-- A product at the wide format, with the addend of `vwmacc` (R243). -/
def wideOp (f g : Fmt) (rm : Rm) (a b : Nat) (d : Option Nat) : Nat × Fl :=
  match fmtKind f, fmtKind g with
  | .float S, .float D =>
    let ca := toFloat S D .rne false (S.dec a)
    let cb := toFloat S D .rne false (S.dec b)
    let r := match d with
      | some d => D.fmaV rm false (D.dec ca.1) (D.dec cb.1) (D.dec d)
      | none => D.mulV rm false (D.dec ca.1) (D.dec cb.1)
    (r.1, (ca.2.or cb.2).or r.2)
  | .int I, .int J => (trunc J.bits (sext I.bits a * sext I.bits b + ((d.map (sext J.bits)).getD 0)), {})
  | _, _ => (0, {})

/-- `vwmul` and `vwmacc` (R243): the destination is a pair whatever vl is. -/
def State.vecWide (s : State) (t : Nat) (x : QEntry) (o : VArith) (acc : Bool) : ERes :=
  s.vecCheck t x (fun f => (wideFmt f).isSome) fun f s =>
    let g := (wideFmt f).getD .b32
    let srcs := o.a.toNat :: (if o.sc then [] else [o.b.toNat])
    if pairBad o.d.toNat (max 32768 (elemBytes (fmtBits g) x.vl)) srcs then s.vecError t 2
    else
      let w := s.tw t
      let a := w.vElems o.a.toNat f x.vl
      let d := w.vElems o.d.toNat g x.vl
      let (b, fb) := s.vecB t x o f
      let rm := s.vecRm t .dyn
      let rs := (w.activeElems x.vl o.m o.k).map (fun i =>
        (i, wideOp f g rm ((a[i]?).getD 0) (b i) (if acc then some ((d[i]?).getD 0) else none)))
      let fl := rs.foldl (fun (f : Fl) e => f.or e.2.2) fb
      (true, (s.vPut t o.d.toNat g (rs.map (fun e => (e.1, e.2.1)))).vecFlags t fl)

/-- The wide format of `vwdot` (R244). -/
def dotFmt (f : Fmt) : Option Fmt := match f with
  | .int8 => some .int32 | .int16 => some .int64 | .pip8a | .pip8b => some .b32 | .pip16 => some .b64
  | _ => none

/-- One wide element of `vwdot` (R244; log entry 22). -/
def dotElem (f g : Fmt) (rm : Rm) (d : Nat) (ab : List (Nat × Nat)) : Nat × Fl :=
  match fmtKind f, fmtKind g with
  | .float S, .float D =>
    let up := fun v => D.dec (toFloat S D .rne false (S.dec v)).1
    let vd := D.dec d
    D.sumTerms rm false (ab.map (fun p => up p.1) ++ ab.map (fun p => up p.2) ++ [vd])
      (ab.map (fun p => (false, up p.1, up p.2)) ++ [(false, vd, Val.one)])
  | .int I, .int J =>
    (trunc J.bits ((ab.map (fun p => sext I.bits p.1 * sext I.bits p.2)).foldl (· + ·) (sext J.bits d)), {})
  | _, _ => (0, {})

/-- `vwdot` (R244). DESIGN CHOICE (log entry 112): where several conditions of R254 hold, the lower code is recorded, here 0x02
before 0x03 and in `vecMem` 0x04 before 0x05; the spec gives no order. -/
def State.vecDot (s : State) (t : Nat) (x : QEntry) (o : VArith) : ERes :=
  s.vecCheck t x (fun f => (dotFmt f).isSome) fun f s =>
    let g := (dotFmt f).getD .b32
    if o.d = o.a ∨ (o.sc = false ∧ o.d = o.b) then s.vecError t 2
    else if x.vl % 4 ≠ 0 then s.vecError t 3
    else
      let w := s.tw t
      let a := w.vElems o.a.toNat f x.vl
      let d := w.vElems o.d.toNat g (x.vl / 4)
      let (b, fb) := s.vecB t x o f
      let rm := s.vecRm t .dyn
      let js := (List.range (x.vl / 4)).filter (fun j => !o.m || w.mbit o.k.toNat (4 * j))
      let rs := js.map (fun j => (j, dotElem f g rm ((d[j]?).getD 0)
        ((range (4 * j) 4).map (fun i => ((a[i]?).getD 0, b i)))))
      let fl := rs.foldl (fun (f : Fl) e => f.or e.2.2) fb
      (true, (s.vPut t o.d.toNat g (rs.map (fun e => (e.1, e.2.1)))).vecFlags t fl)

/-! Memory instructions. -/

/-- Offset of element `i` (R245). For int4, unit stride is packed, and the other forms reach whole bytes (log entry 28). -/
def State.vecOff (s : State) (t : Nat) (x : QEntry) (o : VMem) (form : VForm) (f : Fmt) (i : Nat) : Nat :=
  let a := (x.gv 0).toNat
  let bits := fmtBits f
  match form with
  | .unit => (a + i * bits / 8) % 2 ^ 64
  | .strided => (x.gv 0 + BitVec.ofNat 64 i * x.gv 1).toNat
  | .indexed => (a + leNat ((s.tw t).vBytes o.b.toNat (4 * i) 4) * bits / 8) % 2 ^ 64

/-- A misaligned address or stride, found before the address phase (R248). DESIGN CHOICE (log entry 112): the offset `gA + i·s`
alone must be a multiple of the element's size, not its sum with BASE; the spec does not say which. -/
def State.vecMisaligned (s : State) (t : Nat) (x : QEntry) (o : VMem) (form : VForm) (f : Fmt) (act : List Nat) : Bool :=
  let sz := fmtBits f / 8
  if sz = 0 then match form with
    | .indexed => act.any (fun i => decide (leNat ((s.tw t).vBytes o.b.toNat (4 * i) 4) % 2 = 1))
    | _ => false
  else
    (decide (form = .strided) && decide ((x.gv 1).toNat % sz ≠ 0))
      || act.any (fun i => decide (s.vecOff t x o form f i % sz ≠ 0))

/-- What the address phase finds (R246, R249, R251). -/
inductive AddrPhase where
  | ok (ps : List (Nat × List Piece)) (s : State)
  | fail (s : State)

/-- Records a fault in `VEC_FAULT` (R249). -/
def State.vecRecord (s : State) (t : Nat) (i : Instr) (elem : Nat) (write : Bool) (e : AccErr) : State :=
  let (kind, addr) : Nat × Nat := match e with
    | .seg _ off => (1, off)
    | .xlat _ _ _ _ dva => (2, dva)
    | .hole fpa _ => (3, fpa)
    | _ => (0, 0)
  let s := s.wr (Reg.vecFault t) (BitVec.ofNat 64 ((encode i).toNat * 2 ^ 32 + elem * 2 ^ 16 + b2n write * 16 + kind))
  (s.wr (Reg.vecFaultAddr t) (BitVec.ofNat 64 addr)).setF (Reg.vecStatStopped t) 1

/-- With FAULT_ALL, the translation faults of the remaining elements, up to a fault of another kind (R251); a walk's error
response is the step's (R566). -/
def State.vecFaultAll (s : State) (t : Nat) (sg : Seg) (acc : Access) (n : Nat) : List Nat → State
  | [] => s
  | o :: os => match s.resolve t 1 sg acc o n with
    | (.error (.xlat kind level addr adv dva), s) => (s.raiseFault t 1 kind acc level addr adv dva).vecFaultAll t sg acc n os
    | (.error .migWait, s) => s.vecFaultAll t sg acc n os
    | (.error (.walkErr host), s) => s.walkFails (.tower (BitVec.ofNat 7 t)) host
    | (.error _, s) => s
    | (.ok _, s) => s.vecFaultAll t sg acc n os

/-- The address phase over active elements with their offsets (R246). -/
def State.vecAddr (s : State) (t : Nat) (i : Instr) (sg : Seg) (acc : Access) (n : Nat) :
    List (Nat × Nat) → List (Nat × List Piece) → AddrPhase
  | [], done => .ok done.reverse s
  | (el, o) :: es, done => match s.resolve t 1 sg acc o n with
    | (.ok ps, s) => s.vecAddr t i sg acc n es ((el, ps) :: done)
    | (.error .migWait, s) => .fail s
    | (.error (.walkErr host), s) => .fail (s.walkFails (.tower (BitVec.ofNat 7 t)) host)
    | (.error e, s) =>
      let s := (s.vecRecord t i el (decide (acc = .write)) e).engFail t .vec 1 acc e
      match e with
      | .xlat .. => .fail (if s.fb (Reg.vecCtrlFaultAll t) then s.vecFaultAll t sg acc n (es.map (·.2)) else s)
      | _ => .fail s

/-! Requests of elements (R245): consecutive elements in one granule share a request. -/

/-- Two pieces lie in one granule. -/
def sameGranule (p q : Piece) : Bool := decide (p.fpa / 64 = q.fpa / 64)

/-- The bytes from the lower of two pieces to the end of the other. -/
def Piece.cover (p q : Piece) : Piece :=
  let a := min p.fpa q.fpa
  ⟨a, max (p.fpa + p.len) (q.fpa + q.len) - a, if a = p.fpa then p.dva else q.dva⟩

/-- The requests of a load: a request covers consecutive elements of its granule. -/
def shareReads : List Piece → List Piece
  | [] => []
  | p :: rest => match shareReads rest with
    | [] => [p]
    | q :: qs => if sameGranule p q then p.cover q :: qs else p :: q :: qs

/-- The requests of a store, with their bytes: consecutive elements of a granule share one where their bytes touch, since a
request writes bytes that follow one another (DEDUCED, log entry 48); of two elements on one byte the later remains (R246). -/
def shareWrites : List (Piece × List Byte) → List (Piece × List Byte)
  | [] => []
  | (p, bs) :: rest => match shareWrites rest with
    | [] => [(p, bs)]
    | (q, cs) :: qs =>
      if sameGranule p q && decide (q.fpa ≤ p.fpa + p.len) && decide (p.fpa ≤ q.fpa + q.len) then
        let u := p.cover q
        (u, patch (patch (List.replicate u.len 0) (p.fpa - u.fpa) bs) (q.fpa - u.fpa) cs) :: qs
      else (p, bs) :: (q, cs) :: qs

/-- Bytes of pieces by FPA. -/
def byFpa (ps : List Piece) (bs : List Byte) : Tab Byte :=
  (((ps.flatMap (fun p => range p.fpa p.len)).zip bs)).foldl (fun (m : Tab Byte) e => Tab.set m e.1 e.2) []

/-- Bytes at a piece. -/
def Piece.bytesIn (p : Piece) (m : Tab Byte) : List Byte := (range p.fpa p.len).map (Tab.get 0 m)

/-- The checks before the address phase, then the address phase; an instruction whose address phase has passed goes on with
its data phase (R246–R250). `vals` gives the bytes that a store's elements have then. -/
def State.vecMem (s : State) (t : Nat) (x : QEntry) (i : Instr) (o : VMem) (form : VForm) (acc : Access)
    (vals : Fmt → List Nat → State → List Byte) (go : Fmt → Plan → State → ERes) : ERes :=
  s.vecCheck t x (fun _ => true) fun f s =>
    match (s.tw t).planOf 1 x with
    | some p => go f p s
    | none =>
      let act := (s.tw t).activeElems x.vl o.m o.k
      if form = .indexed ∧ 4096 < x.vl then s.vecError t 4
      else if s.vecMisaligned t x o form f act then s.vecError t 5
      else
        match (s.start t .vec).vecAddr t i (x.seg 0) acc (max 1 (fmtBits f / 8))
            (act.map (fun e => (e, s.vecOff t x o form f e))) [] with
        | .fail s => (false, s)
        | .ok ps s =>
          let p : Plan := { serial := x.serial, parts := ps, bytes := vals f act s }
          go f p (s.putPlan t 1 p)

/-- Which nibble of its byte an int4 element takes. -/
def nibbleHi (form : VForm) (i : Nat) : Bool := decide (form = .unit) && decide (i % 2 = 1)

/-- The loads (R245, R246). -/
def State.vecLoad (s : State) (t : Nat) (x : QEntry) (i : Instr) (o : VMem) (form : VForm) : ERes :=
  s.vecMem t x i o form .read (fun _ _ _ => []) fun f p s =>
    let qs := shareReads (p.parts.flatMap (·.2))
    match s.engRead t 1 qs with
    | (none, s) => (false, s)
    | (some bs, s) =>
      let m := byFpa qs bs
      let xs := p.parts.map (fun e =>
        let v := leNat (e.2.flatMap (fun q => q.bytesIn m))
        (e.1, if fmtBits f = 4 then (if nibbleHi form e.1 then v / 16 else v % 16) else v))
      (true, (s.ungate t 1).vPut t o.v.toNat f xs)

/-- The bytes an int4 store writes, element by element, over the bytes found. -/
def nibbleBytes (form : VForm) : List (Nat × Nat × Nat) → Tab Byte → List Byte
  | [], _ => []
  | (el, a, v) :: es, m =>
    let b := (Tab.get 0 m a).toNat
    let nb : Byte := BitVec.ofNat 8 (if nibbleHi form el then b % 16 + v % 16 * 16 else b / 16 * 16 + v % 16)
    nb :: nibbleBytes form es (Tab.set m a nb)

/-- The values of the active elements of a register as bytes, one after another; a nibble fills a byte. -/
def State.storeVals (s : State) (t : Nat) (x : QEntry) (o : VMem) (f : Fmt) (act : List Nat) : List Byte :=
  let xs := (s.tw t).vElems o.v.toNat f x.vl
  act.flatMap (fun el => leBytes (max 1 (fmtBits f / 8)) ((xs[el]?).getD 0))

/-- An element's bytes cut at its pieces, of which it has two across a page boundary (R245, R272). -/
def cutBytes : List Piece → List Byte → List (Piece × List Byte)
  | [], _ => []
  | p :: ps, bs => (p, bs.take p.len) :: cutBytes ps (bs.drop p.len)

/-- The stores (R245, R246). -/
def State.vecStore (s : State) (t : Nat) (x : QEntry) (i : Instr) (o : VMem) (form : VForm) : ERes :=
  s.vecMem t x i o form .write (fun f act s => s.storeVals t x o f act) fun f p s =>
    let all := p.parts.flatMap (·.2)
    let n := max 1 (fmtBits f / 8)
    let elemVal := fun (j : Nat) => (p.bytes.drop (j * n)).take n
    let js := (List.range p.parts.length).zip p.parts
    let put := fun (before : List Req) (vals : List (Piece × List Byte)) (s : State) =>
      let ws := shareWrites vals
      s.engWrite t 1 before (ws.map (·.1)) (ws.flatMap (·.2))
    if fmtBits f = 4 then
      let qs := shareReads all
      match s.engRead t 1 qs with
      | (none, s) => (false, s)
      | (some bs, s) =>
        let out := nibbleBytes form (js.map (fun e => (e.2.1, ((e.2.2.head?).map (·.fpa)).getD 0, leNat (elemVal e.1)))) (byFpa qs bs)
        put (readReqs qs) (all.zip (out.map (fun b => [b]))) s
    else put [] (js.flatMap (fun e => cutBytes e.2.2 (elemVal e.1))) s

/-- Whether an element would fault (R253): the access checked is a read, DESIGN CHOICE (log entry 112), the spec names none. None
where its walk waits for a page being moved (R404), or meets an error response, which is the step's (R566). -/
def State.vecProbe1 (s : State) (t : Nat) (sg : Seg) (n o : Nat) : Option Bool × State :=
  match s.resolve t 1 sg .read o n with
  | (.ok _, s) => (some false, s)
  | (.error .migWait, s) => (none, s)
  | (.error (.walkErr host), s) => (none, s.walkFails (.tower (BitVec.ofNat 7 t)) host)
  | (.error _, s) => (some true, s)

/-- The checks of `vprobe` on elements with their offsets, up to one that cannot be made yet. -/
def State.vecProbes (s : State) (t : Nat) (sg : Seg) (n : Nat) : List (Nat × Nat) → Option (List (Nat × Bool)) × State
  | [] => (some [], s)
  | e :: es => match s.vecProbe1 t sg n e.2 with
    | (none, s) => (none, s)
    | (some b, s) => match s.vecProbes t sg n es with
      | (none, s) => (none, s)
      | (some l, s) => (some ((e.1, b) :: l), s)

/-- `vprobe` (R253). -/
def State.vecProbe (s : State) (t : Nat) (x : QEntry) (o : VMem) (form : VForm) : ERes :=
  s.vecCheck t x (fun _ => true) fun f s =>
    let act := (s.tw t).activeElems x.vl o.m o.k
    if 4096 < x.vl then s.vecError t 4
    else if s.vecMisaligned t x o form f act then s.vecError t 5
    else
      let n := max 1 (fmtBits f / 8)
      match s.vecProbes t (x.seg 0) n (act.map (fun el => (el, s.vecOff t x o form f el))) with
      | (none, s) => (false, s)
      | (some l, s) =>
        let s := overList l (fun e s => s.setMask t o.v.toNat e.1 e.2) s
        (true, s.setF (Reg.vecProbeCntCount t) (l.filter (·.2)).length)

/-- A mask instruction (R233). -/
def State.vecMask (s : State) (t : Nat) (x : QEntry) (d a b : R3) (op : Bool → Bool → Bool) : ERes :=
  s.vecCheck t x (fun _ => true) fun _ s =>
    let w := s.tw t
    (true, overList (List.range x.vl) (fun i s => s.setMask t d.toNat i (op (w.mbit a.toNat i) (w.mbit b.toNat i))) s)

/-- `vrel` (R228). -/
def State.vecRel (s : State) (t : Nat) (r : Nat) : ERes :=
  let s := s.modTw t (fun w => { w with vregs := Tab.keep w.vregs (fun k => decide (k / 16384 ≠ r)) })
  (true, s.wr (Reg.vecInuse t) (setBit (s.rd (Reg.vecInuse t)) r false))

/-- What the unit does with an instruction (R256). -/
def State.vecRun (s : State) (t : Nat) (x : QEntry) (i : Instr) : ERes :=
  let any := fun _ : Fmt => true
  let fi := fun f : Fmt => isFloat f || isInt f
  let ieee := fun f : Fmt => decide (f = .b32) || decide (f = .b64)
  match i with
  | .vadd _ _ o => s.vecArith t x o any .add
  | .vsub _ _ o => s.vecArith t x o any .sub
  | .vmul _ _ o => s.vecArith t x o fi .mul
  | .vdiv _ _ o => s.vecArith t x o ieee .div
  | .vsqrt _ _ o => s.vecArith t x o ieee .sqrt
  | .vmin _ _ o => s.vecArith t x o fi .min
  | .vmax _ _ o => s.vecArith t x o fi .max
  | .vfma _ _ o => s.vecArith t x o isFloat .fma
  | .vfms _ _ o => s.vecArith t x o isFloat .fms
  | .vabs _ _ o => s.vecArith t x o fi .abs
  | .vneg _ _ o => s.vecArith t x o any .neg
  | .vand _ _ o => s.vecArith t x o isInt .and
  | .vor _ _ o => s.vecArith t x o isInt .or
  | .vxor _ _ o => s.vecArith t x o isInt .xor
  | .vsll _ _ o => s.vecArith t x o isInt .sll
  | .vsrl _ _ o => s.vecArith t x o isInt .srl
  | .vsra _ _ o => s.vecArith t x o isInt .sra
  | .vmv _ _ o => s.vecArith t x o any .mv
  | .vmerge _ _ o => s.vecMerge t x o
  | .vcmul _ _ o => s.vecArith t x o isComplex .cmul
  | .vcmac _ _ o => s.vecArith t x o isComplex .cmac
  | .vconj _ _ o => s.vecArith t x o isComplex .conj
  | .vredsum _ _ o => s.vecReduce t x o any (fun f rm pi b xs => if xs = [] then (b, {}) else sumElems f rm pi (b :: xs))
  | .vredmax _ _ o => s.vecReduce t x o fi (fun f _ _ b xs => extElems true f b xs)
  | .vredmin _ _ o => s.vecReduce t x o fi (fun f _ _ b xs => extElems false f b xs)
  | .vcmpeq _ _ o => s.vecCompare t x o any .eq
  | .vcmplt _ _ o => s.vecCompare t x o fi .lt
  | .vcmple _ _ o => s.vecCompare t x o fi .le
  | .vcmpun _ _ o => s.vecCompare t x o any .un
  | .vwmul _ _ o => s.vecWide t x o false
  | .vwmacc _ _ o => s.vecWide t x o true
  | .vwdot _ _ o => s.vecDot t x o
  | .vcvt _ _ d a fmt rm m k => s.vecConvert t x d a fmt rm m k
  | .vld _ _ o => s.vecLoad t x i o .unit
  | .vlds _ _ o => s.vecLoad t x i o .strided
  | .vldx _ _ o => s.vecLoad t x i o .indexed
  | .vst _ _ o => s.vecStore t x i o .unit
  | .vsts _ _ o => s.vecStore t x i o .strided
  | .vstx _ _ o => s.vecStore t x i o .indexed
  | .vprobe _ _ form o => s.vecProbe t x o form
  | .vmand _ _ d a b => s.vecMask t x d a b (· && ·)
  | .vmor _ _ d a b => s.vecMask t x d a b (· || ·)
  | .vmxor _ _ d a b => s.vecMask t x d a b (· != ·)
  | .vmnot _ _ d a => s.vecMask t x d a a (fun p _ => !p)
  | .vrel _ _ a => s.vecRel t a.toNat
  | _ => (true, s)

end Sys2Proof.Machine
end

