-- ==== Sys2Proof/Machine/Engines.lean ====
section
/-! DEFINITION. The six queues at work: each engine executes its queue in order; markers and queued control-register
writes take effect in that order (R24, R291–R293, R295, R338). -/

namespace Sys2Proof.Machine

/-- A write to a field-by-field register: RW bits take the value, W1C bits clear, W1S bits set, within a grant (R15,
R294). -/
def regMix (old v : Dword) (info : RegInfo) (grant : Dword) : Dword :=
  let rw := BitVec.ofNat 64 info.rw &&& grant
  let w1c := BitVec.ofNat 64 info.w1c &&& grant
  let w1s := BitVec.ofNat 64 info.w1s &&& grant
  ((old &&& ~~~ rw) ||| (v &&& rw)) &&& ~~~ (v &&& w1c) ||| (v &&& w1s)

/-- A write, within a grant, to a register of the `VEC_`, `DOM_`, `TUR_` or `SPR_` block: a reserved mode or a histogram
width of 7 leaves its field (R83, R198). -/
def State.engRegPut (s : State) (a : Nat) (v grant : Dword) : State :=
  match regInfo a with
  | none => s
  | some info =>
    let old := s.rd a
    let o := a % 0x100000
    if o = 0x4000 ∨ o = 0x5000 ∨ o = 0x6000 then s.wr a (fpcsrWrite old ((old &&& ~~~ grant) ||| (v &&& grant)))
    else
      let n := regMix old v info grant
      s.wr a (if o = 0x5010 ∧ fld n 2 0 = 7 then setFld n 2 0 (fld old 2 0) else n)

/-- A write to a whole register of an engine's block. -/
def State.engRegWrite (s : State) (a : Nat) (v : Dword) : State := s.engRegPut a v (-1)

/-- A marker holds its queue until every earlier instruction of the masked queues is complete (R292). -/
def Tower.markerOpen (w : Tower) (mask serial : Nat) : Bool :=
  (maskEngines mask).all (fun e => !w.pendingBefore e serial)

/-- What an engine does with an instruction. -/
def State.engRun (s : State) (t : Nat) (e : Eng) (x : QEntry) (i : Instr) : ERes := match e with
  | .vec => s.vecRun t x i
  | .spr => s.sprRun t x i
  | .dom => s.domRun t x i
  | .tur => match i with
    | .tuPtr _ _ p tile sg _ fmt => s.turPtr t x p.toNat tile sg.toNat (fmtCode fmt)
    | .tuProg _ _ slot _ _ => s.turProg t x slot.toNat
    | .tuRun _ _ slot count hist => s.turRun t slot.toNat count.toNat hist none
    | _ => (true, s)
  | .tile => s.tileRun t x i
  | .str => s.strRun t x i

/-- The entry at the head of an engine's queue leaves it. -/
def Tower.popHead (w : Tower) (e : Eng) : Tower := (w.setQueue e ((w.queue e).drop 1)).setBegun e false

/-- An engine attempts the head of its queue; a completed entry leaves (R24). -/
def State.engHead (s : State) (t : Nat) (e : Eng) : ERes :=
  let w := s.tw t
  if !s.engineActs t e || decide (w.stop e ≠ .running) then (false, s)
  else match w.queue e with
    | [] => (false, s)
    | x :: _ =>
      let r : ERes := match x.kind with
        | .insn i => s.engRun t e x i
        | .crw a v => (true, s.engRegWrite a v)
        | .marker mask => (w.markerOpen mask x.serial, s)
      (r.1, if r.1 then r.2.modTw t (fun w => w.popHead e) else r.2)

/-- An engine goes on while it completes entries. -/
def State.engDrain (s : State) (t : Nat) (e : Eng) : Nat → State
  | 0 => s
  | fuel + 1 => match s.engHead t e with
    | (true, s) => s.engDrain t e fuel
    | (false, s) => s

/-- The dispatcher and the slots go on, the one making room for the other (R338). -/
def State.strGo (s : State) (t : Nat) : Nat → State
  | 0 => s
  | fuel + 1 =>
    let n := (s.tw t).qStr.length
    let s := (s.engDrain t .str n).slotsRun t
    if (s.tw t).qStr.length = n then s else s.strGo t fuel

/-- One engine runs; the stream engine's slots run with it. -/
def State.engGo (s : State) (t : Nat) (e : Eng) : State :=
  if e = .str then s.strGo t ((s.tw t).qStr.length + 1) else s.engDrain t e (((s.tw t).queue e).length)

/-- Entries that the Tower's queues and slots hold. -/
def Tower.held' (w : Tower) : Nat :=
  (allEngines.map (fun e => (w.queue e).length)).foldl (· + ·) 0
    + (w.slots.map (fun l => l.2.fifo.length)).foldl (· + ·) 0

/-- Requests issued by the instructions under way. -/
def Tower.issued (w : Tower) : Nat := (w.gates.map (·.2)).foldl (· + ·) 0

/-- The engines in the order of one round. The requesters vector, Dome, tile and stream go first in turn (R350); the Spire
goes before the Dome, and the Turret after it, since a drain starts before a `tu.run` that is ready with it (R183). -/
def engineOrder (turn : Nat) : List Eng := match turn % 4 with
  | 0 => [.vec, .spr, .dom, .tur, .tile, .str]
  | 1 => [.spr, .dom, .tur, .tile, .str, .vec]
  | 2 => [.tile, .str, .vec, .spr, .dom, .tur]
  | _ => [.str, .vec, .spr, .dom, .tur, .tile]

/-- All engines run in turn, until a round completes nothing and issues nothing. -/
def State.roundsGo (s : State) (t : Nat) : Nat → State
  | 0 => s
  | fuel + 1 =>
    let w := s.tw t
    let s' := overList (engineOrder w.turn) (fun e s => s.engGo t e) s
    let s' := s'.modTw t (fun w => { w with turn := (w.turn + 1) % 4 })
    if (s'.tw t).held' = w.held' ∧ (s'.tw t).issued = w.issued then s' else s'.roundsGo t fuel

/-- The engines of a Tower go on as far as they can: each round completes an entry or issues requests, of which the tracker
admits 8,192 (R349). -/
def State.enginesGo (s : State) (t : Nat) : State :=
  if (s.tw t).held' = 0 then s else s.roundsGo t ((s.tw t).held' + 8193)

/-- The queues of a mask are empty and their instructions complete (R292, R293). -/
def Tower.idle (w : Tower) (mask : Nat) : Bool :=
  (maskEngines mask).all (fun e => decide (w.queue e = []) && (decide (e ≠ .str) || w.slots.all (fun l => decide (l.2.fifo = []))))

/-- Row of R505 of a structure. -/
def partRow : TowerPart → Nat
  | .dome => 2 | .tile => 3 | .vector => 4 | .latch => 6 | .residue => 7 | .slot => 8 | .queue => 10

/-- The structures that an engine reads as it executes an instruction (R158, R505): a residue mismatch comes in a product of the
Spire. -/
def Eng.meets (e : Eng) (i : Instr) : TowerPart → Bool
  | .queue => true
  | .vector => decide (e = .vec) || decide (e = .tile)
  | .latch => decide (e = .spr)
  | .residue => match i with | .spMm .. => true | _ => false
  | .slot => decide (e = .tur) || decide (e = .dom)
  | .tile => decide (e ≠ .vec) && decide (e ≠ .str)
  | .dome => decide (e = .dom) || decide (e = .spr)

/-- The engine reaches an instruction just pushed behind nothing, and meets an error there that its protection does not correct: a
Tower machine check (R158, R505). An instruction that the engine does not reach yet, or that does not read the structure, meets
none. -/
def State.engUpset (s : State) (t : TId) (e : Eng) (i : Instr) (p : TowerPart) : Bool :=
  s.engineActs t.toNat e && decide (((s.tw t.toNat).queue e).length = 1) && decide ((s.tw t.toNat).stop e = .running) && e.meets i p

/-- The core pushes an engine instruction with its captured operands; a word that is illegal is not pushed; a full queue
stalls the core (R24, R25, R265, R278). With `whole` the engine then runs its queue; with `upset` it meets an error there. -/
def pushOp (t : TId) (is : Issue) (e : Eng) (i : Instr) (ok : Bool) (segs : List R3) (gs : List GReg) (q : GReg)
    (s : State) : Out :=
  let c := CoreId.tower t
  let n := t.toNat
  onCoreAt c (encode i) s fun s =>
    if !ok then s.illegal c (encode i)
    else
      let s := if is ≠ .push ∧ (is ≠ .whole ∨ 32 ≤ ((s.tw n).queue e).length) then s.engGo n e else s
      if !s.executes c then .next s
      else if 32 ≤ ((s.tw n).queue e).length then .next (s.stall c .queueFull (encode i))
      else
        let k := s.core c
        let sp := s.rd (Reg.vecSpan n)
        let s := s.modTw n (fun w => w.pushEntry e (.insn i) segs (gs.map k.getG) (k.getQ q)
          (fld sp 15 0) (fld sp 35 32) (bit sp 63))
        let s := s.retire c (s.core c)
        .next (match is with
          | .push => s
          | .whole => s.engGo n e
          | .upset p => if s.engUpset t e i p then s.machineCheck c (partRow p) 0 else s.engGo n e)

end Sys2Proof.Machine
end

