-- ==== Sys2Proof/Machine/RegView.lean ====
section
/-! DEFINITION. What a read of a control register returns: fields that show other state are computed (R14, R15). -/

namespace Sys2Proof.Machine

/-- A number whose bit i says whether p i holds, for i below n. -/
def bitsOf (n : Nat) (p : Nat → Bool) : Nat := ((List.range n).map (fun i => b2n (p i) * 2 ^ i)).foldl (· + ·) 0

/-- Sets fields given as high bit, low bit, value. -/
def withFields (v : Dword) (fs : List (Nat × Nat × Nat)) : Dword :=
  fs.foldl (fun v f => setFld v f.1 f.2.1 f.2.2) v

/-- An engine has started an instruction and not completed it: it awaits answers or is stopped. DESIGN CHOICE (log entry 46): an
`sp.ldsm` stopped on a segment fault has started; R168 does not say. -/
def Tower.busy (w : Tower) (e : Eng) : Bool := decide (w.queue e ≠ []) && w.begun.contains e.num

/-- Level interrupt sources 16 to 22 of a Tower (R325). -/
def State.levels (s : State) (t : Nat) : Nat :=
  bitsOf 7 (fun i => match i with
    | 0 => s.fb (Reg.vecStatErr t)
    | 1 => s.fb (Reg.sprStatCfgErr t)
    | 2 => s.fb (Reg.domStatCfgErr t) || s.fb (Reg.domStatHazard t)
    | 3 => s.fb (Reg.domStatGuard t) && s.fb (Reg.domCtrlGuardIe t)
    | 4 => s.fb (Reg.turStatErr t)
    | 5 => s.fb (Reg.twrTstatErr t)
    | _ => s.fb (Reg.accStatErr t))

/-- Owner of a Tower's interval timer: 0 none, 1 watchdog, 2 sampler (R331). -/
def State.timerOwner (s : State) (t : Nat) : Nat :=
  if (s.tw t).armed then 1 else if s.fb (Reg.twrSmpCtrlEn t) then 2 else 0

/-- A register of a Tower's blocks, at offset `o` of the Tower's range. -/
def State.viewTower (s : State) (t o : Nat) (v : Dword) : Dword :=
  let w := s.tw t
  if o = 0x0018 then setFld v 22 16 (s.levels t)
  else if o = 0x0040 then
    let own := s.timerOwner t
    withFields 0 [(63, 62, own), (31, 0, if own = 0 then 0 else w.timer)]
  else if Reg.twrTstat t = towerBase t + o then setFld v 2 2 (b2n (w.busy .tile))
  else if o = 0x3008 then
    -- SHD_LOADING reads 0 at an `sp.ldsm` stopped on a segment fault: DESIGN CHOICE (log entry 46)
    withFields v [(6, 6, b2n (s.filling t)), (5, 5, b2n (s.fb (Reg.sprSpareS0En t) || s.fb (Reg.sprSpareS1En t))),
      (4, 4, b2n (w.busy .spr && decide (w.sSpr = .running))),
      (3, 3, b2n w.shadow.isSome), (2, 2, b2n w.active.isSome), (1, 1, b2n (w.busy .spr))]
  else if o = 0x4008 then
    withFields v [(31, 24, bitsOf 8 (fun i => ((Tab.find w.dome i).map (·.inuse)).getD false)),
      (23, 16, bitsOf 8 (fun i => ((Tab.find w.dome i).map (·.guard)).getD false))]
  else if o = 0x4018 then BitVec.ofNat 64 (w.domFree none)
  else if 0x4040 ≤ o ∧ o < 0x4080 then
    match Tab.find w.dome ((o - 0x4040) / 8) with
    | none => 0
    | some d => withFields 0 [(63, 63, 1), (62, 62, b2n d.inuse), (61, 61, b2n d.guard), (41, 32, d.granules),
        (26, 24, d.cls), (23, 16, d.n), (8, 0, d.m)]
  else if Reg.turStat t = towerBase t + o then setFld v 2 2 (b2n w.draining)
  else if Reg.vecStat t = towerBase t + o then setFld v 2 2 (b2n (w.busy .vec))
  else if Reg.accStat t = towerBase t + o then
    withFields v [(63, 48, bitsOf 16 (fun k => decide ((w.slot k).stopped ≠ 0))),
      (47, 32, bitsOf 16 (fun k => decide ((w.slot k).fifo ≠ [])))]
  else if Reg.accTrk t = towerBase t + o then setFld v 13 0 w.usedAll
  else if Reg.accSlot t 0 ≤ towerBase t + o ∧ towerBase t + o < Reg.accSlot t 16 then
    let k := (towerBase t + o - Reg.accSlot t 0) / 8
    let l := w.slot k
    withFields 0 [(63, 62, if 2 ≤ l.stopped then l.stopped else b2n (decide (l.fifo ≠ []))), (60, 58, l.fifo.length),
      (45, 32, w.used (4 + k)), (31, 16, l.row)]
  else v

/-- STATE of a port (R441). -/
def State.portState (s : State) (p : Nat) : Nat := s.f (Reg.gwlPortState p)
/-- A port carries traffic: ACTIVE or DEGRADED. -/
def State.portUp (s : State) (p : Nat) : Bool := decide (s.portState p = 2) || decide (s.portState p = 3)
/-- The links and the mesh are powered and clocked: THERM_TRIP# stops them (R490). -/
def State.meshRuns (s : State) : Bool := s.boot.power && !s.boot.trip

/-- A command of the mesh or of a link acts while they are clocked (R490). -/
def onMesh (s : State) (f : State → Out) : Out :=
  if s.meshRuns then f s else .next s

/-- Usable ports of a direction, lowest first (R407). -/
def State.usable (s : State) (d : Nat) : List Nat := [d, d + 6, d + 12].filter s.portUp

/-- A direction is unusable, though some port of it has met a partner or is out of service. DEDUCED (log entry 116): DETOURING resets to
0 with every port ABSENT (R441), so an ABSENT port makes no direction unusable. -/
def State.dirLost (s : State) (d : Nat) : Bool :=
  decide (s.usable d = []) && [d, d + 6, d + 12].any (fun p => decide (s.portState p ≠ 0))

/-- The handover of a dead port runs (R417). -/
def State.handing (s : State) (p : Nat) : Bool := s.ports.any (fun e => e.2.hand.any (fun h => decide (h.1 = p)))

/-- Live channels. -/
def State.liveChans (s : State) : Nat := (s.chans.filter (fun c => c.2.live)).length

def State.chan (s : State) (n : Nat) : Channel := Tab.get {} s.chans n
def State.coll (s : State) (n : Nat) : CollSlot := Tab.get {} s.colls n

/-- A register of the module's own blocks. -/
def State.viewModule (s : State) (a : Nat) (v : Dword) : Dword :=
  if a = Reg.xltStat then
    withFields v [(Reg.xltStatQfull.hi, Reg.xltStatQfull.lo, b2n s.qfull),
      (Reg.xltStatMig.hi, Reg.xltStatMig.lo, (s.xlt.migs.filter (fun m => decide (m.frames ≠ []))).length)]
  else if a = Reg.xltFqPend then
    withFields 0 [(25, 16, (s.xlt.faults.filter (fun f => f.held && f.id.isNone)).length), (9, 0, s.unresolved)]
  else if a = Reg.gwlStat then
    withFields v [(3, 3, b2n ((range 0 6).any s.dirLost)),
      (2, 2, b2n ((range 0 18).any (fun p => decide (s.portState p ∈ [3, 4, 5]))))]
  else if Reg.gwlPort 0 ≤ a ∧ a < Reg.gwlPort 18 then
    let p := (a - Reg.gwlPort 0) / 8
    setFld v 0 0 (b2n (decide (s.portState p = 5) && s.handing p))
  else if a = Reg.gwlDir then
    withFields 0 ((range 0 6).map (fun d => (2 * d + 1, 2 * d, (s.usable d).length)))
  else if a = Reg.gwlSlotStat then
    let c := s.coll (s.f Reg.gwlSlotSelSlot)
    withFields 0 [(63, 32, c.gen), (31, 31, b2n c.bound), (30, 30, b2n c.up), (29, 29, b2n c.held), (28, 28, b2n c.err),
      (7, 0, c.arrived.length)]
  else if a = Reg.keepStat then setFld v 46 32 s.liveChans
  else if a = Reg.keepChanStat then
    let c := s.chan (s.f Reg.keepChanSelIndex)
    if c.state = 0 then 0
    else withFields 0 [(63, 48, c.gen), (47, 46, c.state), (34, 32, c.prio), (31, 16, c.sqCons), (15, 0, c.posted)]
  else if a = Reg.hstIrqPend then s.irqPend
  else v

/-- A write-only register reads as 0 (R15): the doorbells, the end-of-interrupt and reset keys, the resolve register. -/
def writeOnly (a : Nat) : Bool :=
  decide (a = Reg.hstIrqEoi) || decide (a = Reg.hstReset) || decide (a = Reg.xltFqResolve)

/-- What a read of the 8-byte-aligned control-register address `a` returns. -/
def State.readReg (s : State) (a : Nat) : Dword :=
  match regInfo a with
  | none => 0
  | some _ =>
    if writeOnly a then 0
    else if 0x1F0100000000 ≤ a then s.viewTower ((a - 0x1F0100000000) / 0x100000) (a % 0x100000) (s.rd a)
    else s.viewModule a (s.rd a)

/-- Watchdog and sampler of a Tower are both enabled (R334). -/
def State.degrade (s : State) (t : Nat) : State :=
  let s := s.setF (Reg.twrStatSampleDegraded t) 1
  if (s.tw t).step.isSome && decide ((s.tw t).run ≠ .saving) then { s with roll := { s.roll with degraded := true } } else s

/-- The rc from which a boundary takes an input that arrives now (R53). -/
def State.stamp (s : State) : Nat := s.roll.rc + s.f Reg.rollPhasePhase + 256

/-- A value already pending keeps its time when a second write replaces the first (R68). -/
def State.stampAfter (s : State) (due : Nat) : Nat := if due = 0 then s.stamp else due

end Sys2Proof.Machine
end

