-- ==== Sys2Proof/Machine/Link.lean ====
section
/-! DEFINITION. Ports and links: training, frames, credits, replay, handover (R407–R418, R509). -/

namespace Sys2Proof.Machine

def State.port (s : State) (p : Nat) : Port := Tab.get {} s.ports p
def State.setPort (s : State) (p : Nat) (x : Port) : State := { s with ports := Tab.set s.ports p x }
def State.modPort (s : State) (p : Nat) (f : Port → Port) : State := s.setPort p (f (s.port p))

/-! Torus positions (R407, R408). -/

/-- Coordinate of a module in dimension 0, 1 or 2. -/
def coord (m d : Nat) : Nat := m / 16 ^ d % 16
/-- Ring size of a dimension. -/
def State.ring (s : State) (d : Nat) : Nat :=
  (match d with
    | 0 => s.f Reg.gwlIdXs
    | 1 => s.f Reg.gwlIdYs
    | _ => s.f Reg.gwlIdZs) + 1
/-- A module with its coordinate in a dimension replaced. -/
def setCoord (m d v : Nat) : Nat := m - coord m d * 16 ^ d + v * 16 ^ d
/-- The neighbour of a module in a direction: 0 X+, 1 Y+, 2 Z+, 3 X−, 4 Y−, 5 Z−. -/
def State.neighbour (s : State) (m dir : Nat) : Nat :=
  let d := dir % 3
  let z := s.ring d
  setCoord m d (if dir < 3 then (coord m d + 1) % z else (coord m d + z - 1) % z)

/-- A port's state changes: PORT_CHG, and the fabric interrupt (R441, R536). -/
def State.portTo (s : State) (p st : Nat) : State :=
  if s.portState p = st then s
  else
    let s := (s.setF (Reg.gwlPortState p) st).setF Reg.gwlStatPortChg 1
    if s.fb Reg.gwlCtrlPortIe then s.irqLatch 4 else s

/-- Another port of the direction that carries traffic (R417). -/
def State.sibling (s : State) (p : Nat) : Option Nat := ((s.usable (p % 6)).filter (· ≠ p)).head?

/-! Packets as slots (R419). -/

/-- Data slots of a packet. -/
def pktDataSlots (k : Packet) : Nat := min 4 (ceilDiv k.data.length 16)
def pktSlots (k : Packet) : Nat := 1 + pktDataSlots k

/-- The header slot. -/
def pktHeader (k : Packet) : Qword :=
  k.type ++ k.vc ++ k.detour ++ BitVec.ofBool k.pin ++ k.dest ++ k.src ++ k.tower ++ k.tag ++ k.off ++ k.len ++ k.lpa ++ k.arg

/-- A packet in slots. -/
def pktToSlots (k : Packet) : List Qword :=
  pktHeader k :: (List.range (pktDataSlots k)).map (fun i => BitVec.ofNat 128 (leNat (padTo 16 (k.data.drop (16 * i)))))

/-- A packet read from its header slot and the slots that follow it. -/
def packetOf (h : Qword) (rest : List Qword) : Packet :=
  { type := h.extractLsb' 124 4, vc := h.extractLsb' 121 3, detour := h.extractLsb' 119 2, pin := h.getLsbD 118,
    dest := h.extractLsb' 106 12, src := h.extractLsb' 94 12, tower := h.extractLsb' 87 7, tag := h.extractLsb' 74 13,
    off := h.extractLsb' 68 6, len := h.extractLsb' 62 6, lpa := h.extractLsb' 17 45, arg := h.extractLsb' 0 17,
    data := rest.flatMap (fun q => leBytes 16 q.toNat) }

/-- Packets of a frame's slots: a START bit begins one, which runs to the next START bit and has at most four data slots
(R411, R413). -/
def packetsOf (start : Nat) (slots : List Qword) : List Packet :=
  let starts := (List.range slots.length).filter (fun j => start.testBit j)
  starts.map (fun j =>
    let stop := ((starts.filter (fun k => decide (j < k))).head?).getD slots.length
    let h := (slots[j]?).getD 0
    let n := min 4 (stop - j - 1)
    let k := packetOf h ((slots.drop (j + 1)).take n)
    -- the data slots of a packet that carries none are empty slots of the frame
    if h.extractLsb' 124 4 ∈ [1, 4, 5, 6] then { k with data := [] }
    else if h.extractLsb' 124 4 = 2 then { k with data := k.data.take (16 * ceilDiv (k.off.toNat % 16 + k.len.toNat + 1) 16) }
    else if h.extractLsb' 124 4 = 10 then { k with data := k.data.take 16 }
    else if h.extractLsb' 124 4 ∈ [8, 9] then { k with data := k.data.take (16 * ceilDiv (k.len.toNat + 1) 16) }
    else k)

/-! Sending (R412–R414, R422). -/

/-- Receiver buffer of a VC in slots (R414). -/
def vcBuffer (vc : Nat) : Nat := if vc = 6 then 512 else if vc = 7 then 16 else 256

/-- Credit that a port holds for a VC (R414). -/
def Port.credit (x : Port) (vc : Nat) : Nat :=
  (vcBuffer vc + Tab.get 0 x.freedIn vc + 65536 - Tab.get 0 x.sent vc) % 65536

/-- The first waiting packet of a VC, if its slots fit in `room` and the VC's credit. -/
def Port.ready (x : Port) (room vc : Nat) : Option Packet :=
  match x.txq.find? (fun k => decide (k.vc.toNat = vc)) with
  | some k => if pktSlots k ≤ room ∧ pktSlots k ≤ x.credit vc then some k else none
  | none => none

/-- The VC served next: VC7 first, then the others in turn (R422). -/
def Port.nextVc (x : Port) (room : Nat) : Option Nat :=
  (7 :: (range 0 7).map (fun i => (x.turn + i) % 7)).find? (fun vc => (x.ready room vc).isSome)

/-- Removes the first packet equal to `k`. -/
def removeOne {α : Type} [DecidableEq α] (k : α) : List α → List α
  | [] => []
  | y :: ys => if y = k then ys else y :: removeOne k ys

/-- Fills a frame with packets that hold credits: slots so far and START bits. -/
def Port.fill (x : Port) : Nat → List Qword → Nat → Port × List Qword × Nat
  | 0, sl, st => (x, sl, st)
  | fuel + 1, sl, st =>
    let room := 15 - sl.length
    match x.nextVc room with
    | none => (x, sl, st)
    | some vc => match x.ready room vc with
      | none => (x, sl, st)
      | some k =>
        let x' := { x with txq := removeOne k x.txq, sent := Tab.set x.sent vc ((Tab.get 0 x.sent vc + pktSlots k) % 65536),
                           turn := if vc = 7 then x.turn else (vc + 1) % 7 }
        x'.fill fuel (sl ++ pktToSlots k) (st + 2 ^ sl.length)

/-- The 256 bytes of a frame (R411): every frame carries ACK and NAK. -/
def Port.wire (x : Port) (seq kind start : Nat) (slots : List Qword) : List Byte :=
  let head := seq * 2 ^ 52 + x.rxSeq * 2 ^ 40 + b2n x.nak * 2 ^ 39 + kind * 2 ^ 36 + start * 2 ^ 21
  let bs := leBytes 8 head ++ padTo 244 (slots.flatMap (fun q => leBytes 16 q.toNat))
  bs ++ leBytes 4 (crc32 bs)

/-- A frame leaves on a port. -/
def State.emit (s : State) (p seq kind start : Nat) (slots : List Qword) : State :=
  let s := { s with out := { s.out with link := s.out.link ++ [(p, (s.port p).wire seq kind start slots)] } }
  s.modPort p (fun x => { x with unanswered := 0, sinceCredit := x.sinceCredit + 1 })

/-- A data or control frame leaves and enters the replay buffer (R412, R414). -/
def State.sendFrame (s : State) (p kind start : Nat) (slots : List Qword) : State :=
  let x := s.port p
  let f : SentFrame := ⟨x.txSeq, kind, start, slots, 0⟩
  let s := s.setPort p { x with txSeq := (x.txSeq + 1) % 4096, replay := x.replay ++ [f] }
  (s.incF Reg.gwlTxBytesBytes 240).emit p f.seq kind start slots

/-- A CREDIT word. -/
def creditWord (vc freed : Nat) : Qword := BitVec.ofNat 128 (1 * 2 ^ 124 + vc * 2 ^ 121 + freed * 2 ^ 88)
/-- A HANDOVER word. -/
def handWord (p acc : Nat) : Qword := BitVec.ofNat 128 (2 * 2 ^ 124 + p * 2 ^ 116 + acc * 2 ^ 104)

/-- Sends a control frame where a CREDIT word is due or a HANDOVER word is to be repeated (R414). -/
def State.sendControl (s : State) (p : Nat) (force : Bool) : State :=
  let x := s.port p
  let open' := (range 0 8).filter (fun vc => decide (Tab.get 0 x.freed vc ≠ Tab.get 0 x.told vc))
  let due := open'.any (fun vc => decide (32 ≤ (Tab.get 0 x.freed vc + 65536 - Tab.get 0 x.told vc) % 65536))
    || (decide (open' ≠ []) && decide (32 ≤ x.sinceCredit)) || x.handDue
  if !(due || force) || decide (1024 ≤ x.replay.length) || !s.portUp p then s
  else
    let words := x.hand.map (fun h => handWord h.1 h.2)
      ++ open'.map (fun vc => creditWord vc (Tab.get 0 x.freed vc))
    let s := s.setPort p { x with told := x.freed, sinceCredit := 0, handDue := false }
    s.sendFrame p 2 0 words

/-- An idle frame carries ACK and NAK when nothing else does (R412; log entry 34); a control frame that is due carries them too. -/
def State.sendIdle (s : State) (p : Nat) : State :=
  let s' := s.sendControl p false
  if (s'.port p).txSeq = (s.port p).txSeq then s.emit p 0 1 0 [] else s'

/-- Sends frames while packets hold credits and the replay buffer has room, with a control frame wherever one is due (R412–
R414). -/
def State.pumpFrames (s : State) (p : Nat) : Nat → State
  | 0 => s
  | fuel + 1 =>
    let s := s.sendControl p false
    let x := s.port p
    if 1024 ≤ x.replay.length then s
    else match x.fill 15 [] 0 with
      | (_, [], _) => s
      | (x', sl, st) => ((s.setPort p x').sendFrame p 0 st sl).pumpFrames p fuel

def State.pump (s : State) (p : Nat) : State :=
  if s.portUp p && s.meshRuns then (s.pumpFrames p ((s.port p).txq.length + 1)).sendControl p false else s

/-- A routed packet joins a port's queue; while the port hands over the traffic of a dead one, it waits behind that (R417). -/
def State.enqueue (s : State) (p : Nat) (k : Packet) : State :=
  (s.modPort p (fun x => if x.hand = [] then { x with txq := x.txq ++ [k] } else { x with held := x.held ++ [k] })).pump p

/-! Training, retraining, loss (R409, R415–R418). -/

/-- State that bad lanes allow: 2 ACTIVE, 3 DEGRADED, 4 DOWN (R416). -/
def laneState (bad : Nat) : Nat :=
  if bad = 0 then 2 else if bad % 16 = 0 ∨ bad / 16 = 0 then 3 else 4

/-- Lanes found faulty are marked, and each marking is recorded with its trigger in the row of R508 (R416, R514, R515). -/
def State.markLanes (s : State) (p bad trigger : Nat) : State :=
  let old := s.f (Reg.gwlPortBadlanes p)
  let new := old ||| bad
  if new = old then s
  else overList ((range 0 8).filter (fun i => new.testBit i && !old.testBit i)) (fun i s =>
    (s.flashPut (.lanes p new i trigger)).event 0x22 (partLane p i) (leBytes 1 new)) (s.setF (Reg.gwlPortBadlanes p) new)

/-- Collective slots whose messages are among packets (R418). -/
def collSlotsOf (ks : List Packet) : List Nat :=
  (ks.filter (fun k => decide (k.type ∈ [8, 9]))).map (fun k => k.arg.toNat / 256)

/-- Generations of these slots break by a lost message (R439). -/
def State.collLost (s : State) (ns : List Nat) : State :=
  overList ns (fun n s => { s with colls := Tab.set s.colls n { s.coll n with fault := true } }) s

/-- Packets of the frames that a port has not had acknowledged, and those that wait, in order. -/
def Port.unsent (x : Port) : List Packet :=
  x.replay.flatMap (fun f => if f.kind = 0 then packetsOf f.start f.slots else []) ++ x.txq ++ x.held

/-- The packets of one dead port are lost; those accepted from it go on (R418). -/
def State.dropPort (s : State) (p : Nat) : State :=
  let ks := (s.port p).unsent
  (s.modPort p (fun x => { x with replay := [], txq := [], held := [], hand := [], handDue := false })).collLost
    (collSlotsOf ks)

/-- The packets of a dead port are lost, and those of the dead ports that it was handing over (R418). -/
def State.losePort (s : State) (p : Nat) : State :=
  overList (p :: (s.port p).hand.map (·.1)) (fun d s => s.dropPort d) s

/-- A port goes DOWN or is retired: its sibling repeats a HANDOVER word for it and for the dead ports that it was handing
over; with none, their packets are lost (R417, R418). A port that has carried no traffic since it trained has none to hand
over. -/
def State.portDown (s : State) (p st : Nat) : State :=
  let x := s.port p
  let live := decide (s.portState p ∈ [2, 3])
    || (decide (s.portState p = 1) && (decide (x.txSeq ≠ 0) || decide (x.rxSeq ≠ 4095) || decide (x.unsent ≠ [])))
  let s := s.portTo p st
  if !live then s
  else match s.sibling p with
    | some q =>
      let s := s.modPort p (fun x => { x with hand := [], handDue := false })
      let s := s.modPort q (fun y => { y with hand := y.hand ++ x.hand ++ [(p, x.rxSeq)], handDue := true })
      s.sendControl q true
    | none => s.losePort p

/-- The partner's HANDOVER word has come: packets of frames it had not accepted go out first on the sibling, and once no
other dead port is awaited the packets assigned since follow (R417). -/
def State.handover (s : State) (p acc : Nat) : State :=
  match (range 0 18).find? (fun q => (s.port q).hand.any (fun h => decide (h.1 = p))) with
  | none => s
  | some q =>
    let x := s.port p
    let left := x.replay.filter (fun f => decide (0 < (f.seq + 4096 - acc) % 4096) && decide ((f.seq + 4096 - acc) % 4096 < 2048))
    let ks := ({ x with replay := left }).unsent
    let s := s.setPort p { x with replay := [], txq := [], held := [] }
    let s := s.modPort q (fun y =>
      let hand := y.hand.filter (fun h => decide (h.1 ≠ p))
      if hand = [] then { y with hand := [], txq := ks ++ y.txq ++ y.held, held := [] }
      else { y with hand := hand, txq := ks ++ y.txq })
    s.pump q

/-- A port starts to retrain: it takes no new packets and keeps its replay buffer (R415). -/
def State.retrain (s : State) (p : Nat) : State :=
  if !s.portUp p then s
  else
    let s := ((s.portTo p 1).satF (Reg.gwlPcntRetrains p) 1).bump .portRetrain p 1
    if 16 < s.count .portRetrain p then s.judge (partPort p) 2 (s.count .portRetrain p) else s

/-- Resends every unacknowledged frame in order; a frame resent 8 times makes the port retrain (R412, R415). -/
def State.resend (s : State) (p : Nat) : State :=
  let x := s.port p
  let n := x.replay.length
  let fs := x.replay.map (fun f => { f with tries := f.tries + 1 })
  let s := (s.setPort p { x with replay := fs }).satF (Reg.gwlPcntReplays p) n
  let s := s.incF Reg.gwlTxBytesBytes (240 * n)
  let s := overList fs (fun (f : SentFrame) s => s.emit p f.seq f.kind f.start f.slots) s
  let s := { s with rel := { s.rel with teleResent := satAdd 32 s.rel.teleResent n } }
  if fs.any (fun f => decide (8 ≤ f.tries)) then s.retrain p else s

/-- A port finishes training: the partner must be the one R407 and R408 name (R409). A DOWN port trains afresh only after
its handover, which ends before its next attempt; packets that it had accepted still go on (R417). -/
def execPortTrainingComplete (p : BitVec 5) (partner : BitVec 12) (pport : BitVec 5) (bad : Byte) (s : State) : Out := onMesh s fun s =>
  let n := p.toNat
  let st := s.portState n
  .next (if 18 ≤ n ∨ st ∈ [2, 3, 5, 7] ∨ s.handing n = true then s
    else
      let d := n % 6
      let s := (s.setF (Reg.gwlPortPartner n) partner.toNat).setF (Reg.gwlPortPport n) pport.toNat
      if partner.toNat ≠ s.neighbour s.self d ∨ pport.toNat ≠ 6 * (n / 6) + (d + 3) % 6 then
        (s.portTo n 6).setF Reg.gwlStatMiswire 1
      else
        let s := s.markLanes n bad.toNat 1
        let lanes := s.f (Reg.gwlPortBadlanes n)
        let s := s.modPort n (fun x => { txq := x.txq, old := x.old ++ x.rx, badFrames := 0 })
        let s := s.setF (Reg.gwlPortHalf n) (b2n (decide (lanes % 16 ≠ 0)))
        (s.portTo n (laneState lanes)).pump n)

/-- An ABSENT port tries to train again (R409). -/
def execAbsentRetry (p : BitVec 5) (s : State) : Out := onMesh s fun s =>
  .next (if p.toNat < 18 ∧ s.portState p.toNat = 0 then s.portTo p.toNat 1 else s)

/-- No partner answered within 1 s (R409). -/
def execPortAbsent (p : BitVec 5) (s : State) : Out := onMesh s fun s =>
  .next (if p.toNat < 18 ∧ s.portState p.toNat = 1 then s.portTo p.toNat 0 else s)

/-- ACK does not advance while frames are unacknowledged (R415). -/
def execAckTimeout (p : BitVec 5) (s : State) : Out := onMesh s fun s =>
  .next (if p.toNat < 18 ∧ (s.port p.toNat).replay ≠ [] then s.retrain p.toNat else s)

/-- The frames of 1,024 rolls are judged: above one failure in 10^6 the port retrains once (R509). -/
def execErrorRateCheck (p : BitVec 5) (frames : Nat) (s : State) : Out := onMesh s fun s =>
  let n := p.toNat
  .next (if 18 ≤ n then s
    else
      let x := s.port n
      let high := decide (frames < x.badFrames * 1000000) && !x.rateHold
      let s := s.setPort n { x with badFrames := 0, rateHold := high }
      if high then s.retrain n else s)

/-- A retraining's corrected FEC symbols by lane since the one before; a lane that holds more than 75% of the port's across
4 retrainings within 2^16 rolls is judged permanent (R508). -/
def State.laneShare (s : State) (p : Nat) (corr : List Nat) : State :=
  let all := (s.port p).symbols ++ [(s.roll.passed, corr)]
  let last := all.drop (all.length - 4)
  let s := s.modPort p (fun x => { x with symbols := last })
  let lane : Nat → Nat := fun i => (last.map (fun e => (e.2[i]?).getD 0)).foldl (· + ·) 0
  let total := ((range 0 8).map lane).foldl (· + ·) 0
  if last.length = 4 ∧ last.all (fun e => decide (bucketOf 16 s.roll.passed < bucketOf 16 e.1 + 16)) = true then
    overList ((range 0 8).filter (fun (i : Nat) => decide (3 * total < 4 * lane i))) (fun i s => s.judge (partLane p i) 2 4) s
  else s

/-- A retraining, with the lanes that fail it and the corrected FEC symbols of each lane since the one before (R415, R416,
R508): the port is TRAINING, or DOWN. -/
def execPortRetrain (p : BitVec 5) (lanes : LaneReport) (s : State) : Out := onMesh s fun s =>
  let n := p.toNat
  let bad := lanes.bad
  .next (if 18 ≤ n ∨ s.portState n ∉ [1, 2, 3] then s
    else
      let old := s.f (Reg.gwlPortBadlanes n)
      let s := (s.retrain n).markLanes n bad.toNat 1
      let s := overList ((range 0 8).filter (fun i => bad.toNat.testBit i && !old.testBit i)) (fun i s => s.judge (partLane n i) 1 1) s
      let s := s.laneShare n lanes.corr
      if laneState (s.f (Reg.gwlPortBadlanes n)) = 4 then s.portDown n 4 else s)

/-- Retraining ends: the port carries traffic again and resends from the first unacknowledged frame (R415). Where its bad lanes leave it
no half it is DOWN (R416). -/
def execRetrainComplete (p : BitVec 5) (s : State) : Out := onMesh s fun s =>
  let n := p.toNat
  .next (if 18 ≤ n ∨ s.portState n ≠ 1 then s
    else
      let lanes := s.f (Reg.gwlPortBadlanes n)
      if laneState lanes = 4 then s.portDown n 4
      else
      let s := s.setF (Reg.gwlPortHalf n) (b2n (decide (lanes % 16 ≠ 0)))
      let s := s.portTo n (laneState lanes)
      let s := s.modPort n (fun x => { x with nak := false, replay := x.replay.map (fun f => { f with tries := 0 }) })
      ((s.resend n).modPort n (fun x => { x with replay := x.replay.map (fun f => { f with tries := 0 }) })).pump n)

/-- The partner's HANDOVER word for a dead port arrives (R414, R417). -/
def execPortDownHandover (p : BitVec 5) (accepted : BitVec 12) (s : State) : Out := onMesh s fun s =>
  .next (if p.toNat < 18 ∧ s.portState p.toNat ∈ [4, 5] then s.handover p.toNat accepted.toNat else s)

/-- An attempt to train a DOWN port fails so far; ten in a row are permanent (R417, R508). -/
def execDownRetry (p : BitVec 5) (s : State) : Out := onMesh s fun s =>
  let n := p.toNat
  .next (if 18 ≤ n ∨ s.portState n ≠ 4 then s
    else
      let s := s.modPort n (fun x => { x with downTries := x.downTries + 1 })
      if 10 ≤ (s.port n).downTries then s.judge (partPort n) 1 (s.port n).downTries else s)

/-- A port is retired and the retirement recorded (R417, R515). -/
def State.retirePort (s : State) (p trigger : Nat) : State :=
  if s.portState p = 5 then s
  else
    let s := if s.portState p = 7 then s.portTo p 5 else s.portDown p 5
    (s.flashPut (.retire (partPort p) trigger)).event 0x20 (partPort p) (leBytes 1 trigger)

/-- A lane judged permanent is marked; the port runs on its other half, or is DOWN (R416, R514). A port that trains takes the half when
it is done. -/
def State.retireLane (s : State) (p i trigger : Nat) : State :=
  let s := s.markLanes p (2 ^ i) trigger
  let lanes := s.f (Reg.gwlPortBadlanes p)
  if s.portState p ∉ [1, 2, 3] then s
  else if laneState lanes = 4 then s.portDown p 4
  else if s.portState p = 1 then s
  else (s.setF (Reg.gwlPortHalf p) (b2n (decide (lanes % 16 ≠ 0)))).portTo p (laneState lanes)

/-- The driver sets `GWL_PORTn.RETIRE`, which reads 1 while the handover runs (R417, R441). -/
def execGwlPortRetire (p : BitVec 5) (s : State) : Out :=
  .next (if p.toNat < 18 then s.retirePort p.toNat 0 else s)

/-! Received frames (R411–R414). -/

/-- Acknowledged frames leave the replay buffer. -/
def Port.acked (x : Port) (ack : Nat) : Port :=
  match x.replay.findIdx? (fun f => decide (f.seq = ack)) with
  | some i => { x with replay := x.replay.drop (i + 1) }
  | none => x

/-- A control word. -/
def State.controlWord (s : State) (p : Nat) (w : Qword) : State :=
  let n := w.toNat
  match nfld n 127 124 with
  | 1 => s.modPort p (fun x => { x with freedIn := Tab.set x.freedIn (nfld n 123 121) (nfld n 103 88) })
  | 2 =>
    match (range 0 18).find? (fun q => decide (s.portState q ∈ [4, 5]) && decide (q % 6 = p % 6)
        && decide (s.f (Reg.gwlPortPport q) = nfld n 120 116)) with
    | some q => s.handover q (nfld n 115 104)
    | none => s
  | _ => s

/-- The frame's bytes under the CRC. -/
def frameBytes (f : Frame) : List Byte :=
  leBytes 8 f.head.toNat ++ ((List.range 15).flatMap (fun i => leBytes 16 ((f.slots[i]?).getD 0).toNat)) ++ leBytes 4 f.pad.toNat

/-- A frame is not accepted: NAK goes out with the first such frame, and again wherever 32 frames have passed (R412). -/
def State.refuseFrame (s : State) (p : Nat) : State :=
  let x := s.port p
  let s := s.modPort p (fun x => { x with nak := true, unanswered := x.unanswered + 1 })
  if x.nak = false ∨ 32 ≤ (s.port p).unanswered then s.sendIdle p else s

/-- A frame arrives (R412): accepted in order, or NAK; its ACK, NAK, credits, handover words and packets are taken. Idle
frames take no sequence number (log entry 34). -/
def execLinkFrame (p : BitVec 5) (f : Frame) (s : State) : Out := onMesh s fun s =>
  let n := p.toNat
  .next (if 18 ≤ n ∨ s.portUp n = false then s
    else if !f.fecOk || decide (crc32 (frameBytes f) ≠ f.crc.toNat) then
      let s := s.satF (Reg.gwlPcntCrcErr n) 1
      (s.modPort n (fun x => { x with badFrames := x.badFrames + 1 })).refuseFrame n
    else
      let kind := fld f.head 38 36
      let seq := fld f.head 63 52
      let s := s.modPort n (fun x => x.acked (fld f.head 51 40))
      let s := if bit f.head 39 then s.resend n else s
      let s :=
        if kind = 1 then s
        else if seq ≠ ((s.port n).rxSeq + 1) % 4096 then s.refuseFrame n
        else
          let s := (s.modPort n (fun x => { x with rxSeq := seq, nak := false, unanswered := x.unanswered + 1 })).incF
            Reg.gwlRxBytesBytes 240
          match kind with
          | 0 => s.modPort n (fun x => { x with rx := x.rx ++ packetsOf (fld f.head 35 21) f.slots })
          | 2 => overList f.slots (fun w s => s.controlWord n w) s
          | _ => s
      let s := s.pump n
      if kind ≠ 1 ∧ 0 < (s.port n).unanswered then s.sendIdle n else s)

end Sys2Proof.Machine
end

