-- ==== Sys2Proof/Machine/Collect.lean ====
section
/-! DEFINITION. Barriers and collectives: the tree, arrivals, messages, releases and breaks (R428–R439). -/

namespace Sys2Proof.Machine

def State.setColl (s : State) (n : Nat) (c : CollSlot) : State := { s with colls := Tab.set s.colls n c }

/-! The tree (R429, R432). -/

/-- Extent of the group's box in a dimension, and the root's offset in it. -/
def CollSlot.extent (c : CollSlot) (d : Nat) : Nat := c.ext / 16 ^ d % 16 + 1
def CollSlot.root (c : CollSlot) (d : Nat) : Nat := c.extent d / 2
/-- Offset of a module from the box's corner. -/
def State.boxOff (s : State) (c : CollSlot) (m d : Nat) : Nat := (coord m d + s.ring d - coord c.origin d) % s.ring d
def State.inBox (s : State) (c : CollSlot) (m : Nat) : Bool :=
  (range 0 3).all (fun d => decide (s.boxOff c m d < c.extent d))
/-- The module at another offset in one dimension. -/
def State.boxAt (s : State) (c : CollSlot) (m d o : Nat) : Nat := setCoord m d ((coord c.origin d + o) % s.ring d)
/-- The group has one module. -/
def CollSlot.alone (c : CollSlot) : Bool := decide (c.ext % 4096 = 0)

/-- The member toward the root, and its direction; none at the root. -/
def State.collParent (s : State) (c : CollSlot) : Option (Nat × Nat) :=
  ((range 0 3).find? (fun d => decide (s.boxOff c s.self d ≠ c.root d))).map (fun d =>
    let o := s.boxOff c s.self d
    if o < c.root d then (s.boxAt c s.self d (o + 1), d) else (s.boxAt c s.self d (o - 1), d + 3))

/-- The members whose messages this one combines, with their directions. -/
def State.collKids (s : State) (c : CollSlot) : List (Nat × Nat) :=
  (range 0 3).flatMap (fun d =>
    if (range 0 d).all (fun e => decide (s.boxOff c s.self e = c.root e)) then
      let o := s.boxOff c s.self d
      (if 0 < o ∧ o ≤ c.root d then [(s.boxAt c s.self d (o - 1), d + 3)] else [])
        ++ (if c.root d ≤ o ∧ o + 1 < c.extent d then [(s.boxAt c s.self d (o + 1), d)] else [])
    else [])

/-! Blocks (R430, R431). -/

/-- What every member's binding has alike (R429). -/
def CollSlot.binding (c : CollSlot) : CollBind :=
  ⟨BitVec.ofNat 8 c.op, BitVec.ofNat 8 c.cls, BitVec.ofNat 16 c.m, BitVec.ofNat 16 c.n, BitVec.ofNat 16 c.origin, BitVec.ofNat 16 c.ext⟩

/-- One element of MAX or MIN: a NaN anywhere gives the default NaN (R95, R431). -/
def CollSlot.pick (c : CollSlot) (x y : Nat) : Nat :=
  if c.cls = 9 then
    let less := decide (sext 64 x < sext 64 y)
    if less == decide (c.op = 2) then y else x
  else if (FFmt.b64.dec x).isNan || (FFmt.b64.dec y).isNan then FFmt.b64.dnan
  else (FFmt.b64.minmax (decide (c.op = 2)) x y).1

/-- Combines a contribution or an incoming block with what has been combined so far; a bad one breaks the generation
(R431, R438). -/
def CollSlot.merge (c : CollSlot) (bs : List Byte) : CollSlot :=
  if c.op = 0 then (if bs = [] then c else { c with broken := true })
  else if c.op = 1 then
    match laneClass c.cls, blockLanes c.cls c.m c.n bs with
    | some k, some xs =>
      let ys := (blockLanes c.cls c.m c.n c.block).getD (List.replicate (c.m * c.n) Lane.zero)
      { c with block := laneBlock c.cls c.m c.n (List.zipWith (Lane.add k.width) ys xs) }
    | _, _ => { c with broken := true }
  else if bs.length ≠ 8 * c.m then { c with broken := true }
  else
    let old := if c.block = [] then bs else c.block
    let out := (List.range c.m).flatMap (fun i => leBytes 8 (c.pick (leAt old (8 * i) 8) (leAt bs (8 * i) 8)))
    { c with block := out }

/-- Reads a Tower's contribution; a granule without valid data strikes its step (R360, R430, R438). -/
def State.contribution (s : State) (n : Nat) (a : Arrival) : State :=
  let c := s.coll n
  if c.op = 0 then s
  else
    let at' := c.src + a.rank * c.stride
    let len := if c.op = 1 then leAt (s.load at' 32) 8 4 else 8 * c.m
    if c.stride < len then s.setColl n { c with broken := true }
    else
      let (bs, e, s) := s.readMem a.tower at' len
      if e then s.strikeStep a.step else s.setColl n (c.merge bs)

/-! Messages (R432, R433). -/

def Stamp.key (x : Stamp) : Nat := ((x.roll * 2048 + x.phase) * 64 + x.fine) * 4096 + x.module
/-- The later stamp; among equal times the higher module number counts as later (R434). -/
def Stamp.later (x y : Stamp) : Stamp := if x.key < y.key then y else x

def stampOf (m : CollMsg) : Stamp :=
  ⟨m.stampRoll.toNat, m.stampPhase.toNat, m.stampFine.toNat, m.stampModule.toNat⟩

/-- The message of a slot. -/
def State.collMsg (s : State) (n : Nat) (c : CollSlot) : CollMsg :=
  { slot := BitVec.ofNat 9 n, fromModule := BitVec.ofNat 12 s.self, groupId := BitVec.ofNat 32 c.groupId,
    gen := BitVec.ofNat 32 c.gen, stampRoll := BitVec.ofNat 64 c.best.roll, stampPhase := BitVec.ofNat 11 c.best.phase,
    stampFine := BitVec.ofNat 6 c.best.fine, stampModule := BitVec.ofNat 12 c.best.module,
    block := if c.broken then [] else c.block, broken := c.broken, bind := c.binding, fault := false }

/-- The packets of a message: 64 bytes each, one hop on VC6 (R419, R420, R432; log entry 35). -/
def State.collPackets (s : State) (dest : Nat) (down : Bool) (m : CollMsg) : List Packet :=
  let head := padTo 16 (Config.collHeader [m.slot.toNat, b2n down, m.gen.toNat, m.groupId.toNat, m.stampRoll.toNat,
    m.stampPhase.toNat, m.stampFine.toNat, m.stampModule.toNat, b2n m.broken,
    m.bind.op.toNat, m.bind.cls.toNat, m.bind.m.toNat, m.bind.n.toNat, m.bind.origin.toNat, m.bind.ext.toNat, b2n m.fault])
  let bs := head ++ m.block
  (List.range (ceilDiv bs.length 64)).map (fun i =>
    let d := (bs.drop (64 * i)).take 64
    { type := if down then 9 else 8, vc := 6, detour := 0, pin := false, dest := BitVec.ofNat 12 dest,
      src := BitVec.ofNat 12 s.self, tower := 127, tag := 0, off := 0, len := BitVec.ofNat 6 (d.length - 1),
      lpa := BitVec.ofNat 45 (64 * i), arg := BitVec.ofNat 17 (m.slot.toNat * 256), data := d })

/-- Sends a message one hop; with no usable port it is lost (R418, R432). -/
def State.collSendTo (s : State) (hop : Nat × Nat) (down : Bool) (m : CollMsg) : State :=
  match (s.usable hop.2).head? with
  | none => s.collLost [m.slot.toNat]
  | some p =>
    let s := { s with collOut := s.collOut ++ [⟨hop.1, down, m⟩] }
    overList (s.collPackets hop.1 down m) (fun k s => s.enqueue p k) s

/-! A generation (R431–R438). -/

/-- The slot as the next generation, or the same one afresh, finds it. -/
def CollSlot.fresh (c : CollSlot) : CollSlot :=
  { c with arrived := [], up := false, stamp := {}, best := {}, block := [], got := [], sentUp := false, held := false,
           broken := false, fault := false, told := [] }

/-- Times in rc. -/
def Stamp.rc64 (x : Stamp) : Nat := (x.roll * 1024 + x.phase) * 64 + x.fine

/-- The result goes to DST, the phase bit flips, the error bit tells of a break, and the result goes down the tree
(R428, R433, R434, R438). -/
def State.collRelease (s : State) (n : Nat) : State :=
  let c := s.coll n
  let m := s.collMsg n c
  let (bad, s) :=
    if c.op = 0 then (false, s)
    else
      let (bs, s) := if c.broken then s.freeBytes c.stride else (c.block, s)
      s.writeMem 128 c.dst bs
  if bad then overList (c.arrived.map (·.step)) (fun k s => s.strikeStep k) s
  else
    let s := overList (s.collKids c) (fun k s => s.collSendTo k true m) s
    let last := decide (c.best = c.stamp)
    let b : Barrier := ⟨n + c.gen % 2 ^ 23 * 512, (c.best.rc64 - c.stamp.rc64) / 64, c.best.roll - c.stamp.roll,
      c.stamp.phase, last⟩
    let s := if c.alone then s else { s with roll := { s.roll with barrier := some b } }
    s.setColl n { c.fresh with gen := (c.gen + 1) % 2 ^ 32, phase := !c.phase, err := c.broken }

/-- The module has arrived and its subtree is complete: the message goes up, or waits for alignment, or the root
releases (R432, R433, R435, R51). -/
def State.collAdvance (s : State) (n : Nat) : State :=
  let c := s.coll n
  if c.bound && c.up && !c.sentUp && !c.fault && (s.collKids c).all (fun k => c.got.contains k.1) then
    if !c.alone && !s.fb Reg.rollStatAligned then s.setColl n { c with held := true }
    else match s.collParent c with
      | none => (s.setColl n { c with held := false }).collRelease n
      | some hop => (s.setColl n { c with held := false, sentUp := true }).collSendTo hop false (s.collMsg n c)
  else s

/-- A message's block is one that the binding allows: none for a barrier, a valid SUM record, the elements of MAX or MIN (R135,
R438). -/
def CollSlot.takes (c : CollSlot) (bs : List Byte) : Bool :=
  if c.op = 0 then decide (bs = [])
  else if c.op = 1 then (laneClass c.cls).isSome && (blockLanes c.cls c.m c.n bs).isSome
  else decide (bs.length = 8 * c.m)

/-- A message that breaks the generation: it says so, or carries another GROUP_ID or another binding (R438). Each member counts its
own generations (log entry 55). -/
def CollSlot.clash (c : CollSlot) (m : CollMsg) : Bool :=
  m.broken || decide (m.groupId.toNat ≠ c.groupId) || decide (m.bind ≠ c.binding)

/-! Notices of a break by a fault. DESIGN CHOICE (log entry 70): R439 says that every member's Keep acts, and not how it learns of the
fault; here a notice goes along the tree. Its `broken` says that the generation is in progress at some member passed. -/

/-- The generation is in progress as far as this module knows. -/
def CollSlot.inProgress (c : CollSlot) : Bool := decide (c.arrived ≠ []) || decide (c.got ≠ []) || c.up || c.sentUp

/-- The member's neighbours in the tree: module, direction, whether it lies below. -/
def State.collTies (s : State) (c : CollSlot) : List (Nat × Nat × Bool) :=
  if !c.bound then []
  else (s.collParent c).toList.map (fun h => (h.1, h.2, false)) ++ (s.collKids c).map (fun h => (h.1, h.2, true))

/-- A notice goes to the neighbours that are not among `but`. -/
def State.collNotify (s : State) (n : Nat) (c : CollSlot) (live : Bool) (but : List Nat) : State :=
  let m : CollMsg := { s.collMsg n c with block := [], broken := live, fault := true }
  overList ((s.collTies c).filter (fun h => !but.contains h.1)) (fun h s => s.collSendTo (h.1, h.2.1) h.2.2 m) s

/-- A step of the slot's channel was resident, or had Towers arrived, before the boundary that began the current roll: a step placed
there is in no generation that has broken. -/
def State.collLive (s : State) (c : CollSlot) : Bool :=
  s.steps.any (fun e => decide (e.1 / 65536 = c.chan % 65536)
    && ((decide (e.2.phase = .resident) && decide (e.2.stay ≠ 0))
      || (decide (e.2.phase ≠ .resident) && c.arrived.any (fun a => decide (a.step = e.1)))))

/-- A notice comes: the generation breaks at the next boundary if it is in progress, and the notice goes on then; otherwise it goes on
at once. -/
def State.collTold (s : State) (m : CollMsg) : State :=
  let n := m.slot.toNat
  let c := s.coll n
  let src := m.fromModule.toNat
  if !c.bound || decide (m.groupId.toNat ≠ c.groupId) || !(s.collTies c).any (fun h => decide (h.1 = src)) then s
  else if c.fault || ((m.broken || c.inProgress) && s.collLive c) then
    s.setColl n { c with fault := true, told := if m.broken then c.told ++ [src] else c.told }
  else s.collNotify n c m.broken [src]

/-- An upward message (R432): one for a slot not yet bound waits; a sender the binding does not place below this member breaks the
generation (R438). -/
def State.collTakeUp (s : State) (m : CollMsg) : State :=
  let n := m.slot.toNat
  let c := s.coll n
  if m.fault then s.collTold m
  else if !c.bound then s.setColl n { c with early := c.early ++ [m] }
  else if c.got.contains m.fromModule.toNat = true ∨ c.fault = true then s
  else
    let bad := c.clash m || !(s.collKids c).any (fun k => decide (k.1 = m.fromModule.toNat))
    let c := { c with got := c.got ++ [m.fromModule.toNat], best := c.best.later (stampOf m) }
    let c := if bad then { c with broken := true } else c.merge m.block
    (s.setColl n c).collAdvance n

/-- COLL_UP (R432). -/
def execCollUp (m : CollMsg) (s : State) : Out := onMesh s fun s => .next (s.collTakeUp m)

/-- COLL_DOWN (R433): the member that waits for the result releases; a bad result breaks the generation (R438). -/
def execCollDown (m : CollMsg) (s : State) : Out := onMesh s fun s =>
  let n := m.slot.toNat
  let c := s.coll n
  .next (if m.fault then s.collTold m
    else if c.bound = false ∨ c.sentUp = false ∨ c.fault = true then s
    else
      let bad := c.clash m || !c.takes m.block || decide ((s.collParent c).map (·.1) ≠ some m.fromModule.toNat)
      (s.setColl n { c with best := (stampOf m), block := m.block, broken := bad }).collRelease n)

/-- The module has become aligned: a held upward message goes (R435). -/
def execHeldUpwardRelease (slot : BitVec 9) (s : State) : Out := onMesh s fun s =>
  .next (if (s.coll slot.toNat).held && s.fb Reg.rollStatAligned then s.collAdvance slot.toNat else s)

/-! Arrivals (R428, R430, R431). -/

/-- `bset` on barrier bit `n` by Tower `t`; none for a bit fault. -/
def State.arrive (s : State) (t n : Nat) : Option State :=
  let c := s.coll n
  match s.stepOf t with
  | none => none
  | some (k, _) =>
    if 0x200 ≤ n ∨ c.bound = false ∨ k / 65536 ≠ c.chan % 65536 ∨ c.up = true
        ∨ c.arrived.any (fun a => decide (a.tower = t)) = true ∨ c.localN ≤ c.arrived.length then none
    else
      let a : Arrival := ⟨t, (s.tw t).rank, k⟩
      let arr := c.arrived ++ [a]
      if arr.length < c.localN then some (s.setColl n { c with arrived := arr })
      else
        let st : Stamp := ⟨s.now, s.f Reg.rollPhasePhase, s.roll.fine, s.self⟩
        let s := s.setColl n { c with arrived := arr, up := true, stamp := st, best := c.best.later st }
        let s := overList arr (fun a s => s.contribution n a) s
        some (s.collAdvance n)

/-- Value of a barrier bit: phase bits, then error bits (R428). -/
def State.barrierBit (s : State) (n : Nat) : Bool :=
  if n < 0x200 then (s.coll n).phase else (s.coll (n - 0x200)).err

/-! Breaks under R439. -/

/-- A port dies without a sibling, or its partner loses power: the packets of its unaccepted frames are lost (R418), and with the power
of a member every generation in progress of its groups (R439). -/
def execPortLossNoSibling (x : PortLoss) (s : State) : Out := onMesh s fun s =>
  let n := x.port.toNat
  let dead := s.neighbour s.self (n % 6)
  .next (if 18 ≤ n ∨ s.portState n ∉ [1, 2, 3, 4] then s
    else
      let s := (s.portTo n 4).losePort n
      if x.power then
        s.collLost ((s.colls.filter (fun e => e.2.bound && e.2.inProgress && s.inBox e.2 dead)).map (·.1))
      else s)

/-- At a boundary: where the generation is in progress, steps of the slot's channel that are resident or had arrived are struck, and it
starts afresh; the neighbours are told (R439). -/
def State.collBreak (s : State) (n : Nat) : State :=
  let c := s.coll n
  if !c.fault then s
  else
    let live := c.inProgress || decide (c.told ≠ [])
    let ks := (s.steps.filter (fun e => live && !e.2.struck && decide (e.1 / 65536 = c.chan % 65536)
      && (decide (e.2.phase = .resident) || c.arrived.any (fun a => decide (a.step = e.1))))).map (·.1)
    let s := overList ks (fun k s => s.strikeStep k) s
    (s.collNotify n c live c.told).setColl n (s.coll n).fresh

/-- Every generation broken under R439; a second pass takes those that the strikes of the first break. -/
def State.collBreaks (s : State) : State :=
  let ns := s.colls.map (·.1)
  overList (ns ++ ns) (fun n s => s.collBreak n) s

end Sys2Proof.Machine
end

