-- ==== Sys2Proof/Machine/LoadStore.lean ====
section
/-! DEFINITION. Scalar loads, stores, segment instructions, cache maintenance, `fence`, `isync` and the L1's own
events (R275–R277, R308–R324). -/

namespace Sys2Proof.Machine

/-- Bytes of a size code (R275). -/
def sizeBytes (size : R3) : Nat := match size.toNat with
  | 0 | 4 => 1 | 1 | 5 => 2 | 2 | 6 => 4 | 3 => 8 | _ => 16

/-- gA + sext(imm10) × size (R275). -/
def scalarOffset (k : Core) (a : GReg) (size : R3) (off : BitVec 10) : Nat :=
  offsetOf (k.getG a) (off.toInt * sizeBytes size)

/-- The register value of a load of a size code (R275). -/
def extendLoad (size : R3) (v : Nat) : Dword := match size.toNat with
  | 4 => dw (sext 8 v)
  | 5 => dw (sext 16 v)
  | 6 => dw (sext 32 v)
  | _ => BitVec.ofNat 64 v

/-- `ld` (R275). -/
def execLd (c : CoreId) (d : GReg) (sg : R3) (a : GReg) (size : R3) (off : BitVec 10) (up : Upset) (s : State) : Out :=
  let w := encode (.ld c d sg a size off up)
  onCoreAt c w s fun s =>
    let k := s.core c
    withRegs c up s fun s =>
    if size = 7 then s.illegal c w
    else s.loadBytes c w (k.getS sg) (scalarOffset k a size off) (sizeBytes size) up fun bs s =>
      .next (s.retire c ((s.core c).setG d (extendLoad size (leNat bs))))

/-- `st` writes the register's low bytes (R275, R276). -/
def execSt (c : CoreId) (d : GReg) (sg : R3) (a : GReg) (size : R3) (off : BitVec 10) (s : State) : Out :=
  let w := encode (.st c d sg a size off)
  onCoreAt c w s fun s =>
    let k := s.core c
    if 4 ≤ size.toNat then s.illegal c w
    else s.storeBytes c w (k.getS sg) (scalarOffset k a size off) (leBytes (sizeBytes size) (k.getG d).toNat)

/-- `fld`: binary32, 64 bits into f, or 128 bits into q (R260, R275). -/
def execFld (c : CoreId) (d : GReg) (sg : R3) (a : GReg) (size : R3) (off : BitVec 10) (up : Upset) (s : State) : Out :=
  let w := encode (.fld c d sg a size off up)
  onCoreAt c w s fun s =>
    let k := s.core c
    withRegs c up s fun s =>
    if size ≠ 2 ∧ size ≠ 3 ∧ size ≠ 7 then s.illegal c w
    else s.loadBytes c w (k.getS sg) (scalarOffset k a size off) (sizeBytes size) up fun bs s =>
      let k := s.core c
      .next (s.retire c (if size = 7 then k.setQ d (BitVec.ofNat 128 (leNat bs))
        else k.setF d (BitVec.ofNat 64 (leNat bs))))

/-- `fst` (R275). -/
def execFst (c : CoreId) (d : GReg) (sg : R3) (a : GReg) (size : R3) (off : BitVec 10) (s : State) : Out :=
  let w := encode (.fst c d sg a size off)
  onCoreAt c w s fun s =>
    let k := s.core c
    if size ≠ 2 ∧ size ≠ 3 ∧ size ≠ 7 then s.illegal c w
    else s.storeBytes c w (k.getS sg) (scalarOffset k a size off) (leBytes (sizeBytes size) (k.getQ d).toNat)

/-- gA + 16 × sext(off) (R277). -/
def segOffset (k : Core) (a : GReg) (off : Byte) : Nat := offsetOf (k.getG a) (16 * off.toInt)

/-- `sld` loads a descriptor; an invalid one raises BADDESC; at Tower level s0 is not loadable (R272, R277). -/
def execSld (x : CoreRun) (n m : R3) (a : GReg) (off : Byte) (s : State) : Out :=
  let c := x.core
  let w := encode (.sld x n m a off)
  onCoreAt c w s fun s =>
    let k := s.core c
    withRegs c x.up s fun s =>
    if n = 0 ∧ isKeep c = false then s.illegal c w
    else s.loadBytes c w (k.getS m) (segOffset k a off) 16 x.up fun bs s =>
      let g := Seg.ofBytes bs
      if s.segInvalid (isKeep c) g then s.except c 2 5 (BitVec.ofNat 64 (segOffset k a off)) k.pc
      else .next (s.retire c ((s.core c).setS n g))

/-- `sst` stores a descriptor (R277). -/
def execSst (c : CoreId) (m : R3) (a : GReg) (off : Byte) (n : R3) (s : State) : Out :=
  let w := encode (.sst c m a off n)
  onCoreAt c w s fun s =>
    let k := s.core c
    s.storeBytes c w (k.getS m) (segOffset k a off) (k.getS n).bytes

/-- The check state of a descriptor (R277). -/
def State.checkState (s : State) (keep : Bool) (g : Seg) : Dword :=
  BitVec.ofNat 64 (g.policy * 256 + b2n g.phys * 128 + g.region * 32 + b2n g.x * 16 + b2n g.w * 8 + b2n g.r * 4
    + b2n (s.segInvalid keep g) * 2 + b2n g.null)

/-- `srd` reads BASE, word 1 or the check state; part 3 is illegal (R277). -/
def execSrd (c : CoreId) (d : GReg) (n : R3) (part : BitVec 2) (s : State) : Out :=
  onCore c s fun s =>
    let k := s.core c
    let g := k.getS n
    match part.toNat with
    | 0 => .next (s.retire c (k.setG d (BitVec.ofNat 64 g.base)))
    | 1 => .next (s.retire c (k.setG d g.w1))
    | 2 => .next (s.retire c (k.setG d (s.checkState (isKeep c) g)))
    | _ => s.illegal c (encode (.srd c d n part))

/-- What cache maintenance does to its line (R323). -/
inductive Maint where
  | wb | inv | wbi
deriving DecidableEq, Repr

/-- What cache maintenance does once no store of the line, and no fill of it, is outstanding (R323, R324): a write-back it
makes is awaited, and the instruction executes again when it has been accepted. -/
def State.maintainLine (s : State) (c : CoreId) (w : Word) (line : Nat) (op : Maint) (up : Upset) : Out :=
  match (s.core c).l1Line line with
  | none => .next (s.retire c (s.core c))
  | some (i, e) =>
    match parity up e.dirty with
    | .machineCheck => .next (s.lineCheck c line)
    | .refetch =>
      let s := (s.l1Drop c i).parityFixed c
      .next (s.retire c (s.core c))
    | .good =>
      if e.dirty && decide (op ≠ .inv) then
        let (_, s) := s.writeBack c i
        if !s.executes c then .next s
        else if s.lineBusy c line || ((s.core c).l1Line line).any (fun x => x.2.dirty) then .next (s.stall c .maint w)
        else
          let s := if op = .wbi then s.l1Drop c i else s
          .next (s.retire c (s.core c))
      else
        let s := if op = .wb then s else s.l1Drop c i
        .next (s.retire c (s.core c))

/-- A store of the core to the line is not yet performed: buffered, or issued and not accepted (R317, R324). -/
def State.lineStores (s : State) (c : CoreId) (line : Nat) : Bool :=
  sbOverlap (s.core c).sbuf [linePiece line 0] || s.lineBusy c line

/-- Performs buffered stores while one of them is to the line. -/
def State.drainLine (s : State) (c : CoreId) (line : Nat) : State :=
  if sbOverlap (s.core c).sbuf [linePiece line 0] then s.drainAll c else s

/-- Cache maintenance on the line of one byte (R323, R324): it waits for the core's stores to the line and for a fill of
it, then acts. A Keep core's maintenance of a hole finds no line (R32). -/
def State.maintain (s : State) (c : CoreId) (w : Word) (m : R3) (a : GReg) (op : Maint) (up : Upset) : Out :=
  let k := s.core c
  let acc := if op = .inv then Access.write else .read
  match s.coreResolve c (k.getS m) acc (k.getG a).toNat 1 with
  | (.error e, s) => s.accessFails c w acc e (fun s => .next (s.retire c (s.core c)))
  | (.ok ps, s) =>
    let line := (((linesOf ps).head?).getD (0, 0)).1
    let s := (s.drainLine c line).drainVictimOf c line
    if !s.executes c then .next s
    else if s.lineStores c line then .next (s.stall c .maint w)
    else
      let filling := fun s : State => ((s.core c).fill.map (·.line)) = some line
      let s := if filling s then s.finishFill c .none else s
      if !s.executes c then .next s
      else if filling s then .next (s.stall c .maint w)
      else s.maintainLine c w line op up

/-- `cwb` (R323). -/
def execCwb (c : CoreId) (m : R3) (a : GReg) (up : Upset) (s : State) : Out :=
  let w := encode (.cwb c m a up)
  onCoreAt c w s fun s => withRegs c up s fun s => s.maintain c w m a .wb up
/-- `cinv` (R323). -/
def execCinv (x : CoreRun) (m : R3) (a : GReg) (s : State) : Out :=
  let w := encode (.cinv x m a)
  onCoreAt x.core w s fun s => withRegs x.core x.up s fun s => s.maintain x.core w m a .inv x.up
/-- `cwbi` (R323). -/
def execCwbi (x : CoreRun) (m : R3) (a : GReg) (s : State) : Out :=
  let w := encode (.cwbi x m a)
  onCoreAt x.core w s fun s => withRegs x.core x.up s fun s => s.maintain x.core w m a .wbi x.up

/-- `cpf` starts a fill of an absent line, once the core's stores to the line are performed and a fill of it in progress is
complete (R323, R324). It never faults; an error response to its walk is the step's (R566), and it waits for a page being
moved (R404). While a fill of another line is in progress it has no effect (log entry 42). -/
def execCpf (c : CoreId) (m : R3) (a : GReg) (s : State) : Out :=
  let w := encode (.cpf c m a)
  onCoreAt c w s fun s =>
    let k := s.core c
    match s.coreResolve c (k.getS m) .read (k.getG a).toNat 1 with
    | (.error (.walkErr host), s) => .next (s.walkFails c host)
    | (.error .migWait, s) => .next (s.stall c .maint w)
    | (.error _, s) => .next (s.retire c (s.core c))
    | (.ok ps, s) =>
      let l := ((linesOf ps).head?).getD (0, 0)
      let s := (s.drainLine c l.1).drainVictimOf c l.1
      let s := if (s.core c).fill.isSome then s.finishFill c .none else s
      if !s.executes c then .next s
      else if s.lineStores c l.1 || decide ((s.core c).fill.map (·.line) = some l.1) then .next (s.stall c .maint w)
      else
        let s := if (s.core c).fill.isNone && ((s.core c).l1Way l.1).isNone then s.startFill c l.1 l.2 else s
        .next (s.retire c (s.core c))

/-- `fence`: every earlier scalar store is visible (R292, R319). -/
def execFence (x : CoreRun) (s : State) : Out :=
  let c := x.core
  let w := encode (.fence x)
  onCoreAt c w s fun s => withRegs c x.up s fun s =>
    let (ok, s) := s.flush c x.up
    .next (if !s.executes c then s else if ok then s.retire c (s.core c) else s.stall c .fence w)

/-- `isync` waits for buffered stores and empties the loop buffer (R321). -/
def execIsync (c : CoreId) (s : State) : Out :=
  let w := encode (.isync c)
  onCoreAt c w s fun s =>
    let s := s.drainAll c
    .next (if !s.executes c then s
      else if (s.core c).sbuf ≠ [] ∨ s.storesOut c = true then s.stall c .fence w
      else s.retire c { s.core c with loop := .idle })

/-- The line being filled arrives and is allocated (R312); an upset of the registers in that time is a machine check (R505). -/
def execL1FillComplete (c : CoreId) (up : Upset) (s : State) : Out :=
  withRegs c (if (s.core c).fill.isSome then up else .none) s fun s =>
  let s := s.finishFill c up
  .next (if (s.core c).fill.isNone ∧ (s.core c).wait = .l1Miss then s.modCore c (fun k => { k with wait := .none }) else s)

/-- The core's load/store unit acts: its program runs, or it drains after a preemption (R320). -/
def State.lsuActs (s : State) (c : CoreId) : Bool := s.executes c || match c with
  | .tower t => decide ((s.tw t.toNat).run = .saving)
  | .keep _ => false

/-- The head of the store buffer is performed (R316, R317), after the line that the victim buffer holds, if that can be sent
(R308). -/
def execStoreBufferDrain (c : CoreId) (up : Upset) (s : State) : Out :=
  withRegs c (if s.lsuActs c then up else .none) s fun s =>
  .next (if s.lsuActs c then
    let s := (s.drainVictim c).2
    if s.lsuActs c then (s.drainOne c up).2 else s
  else s)

/-- A write-back's bytes are lost: its line is invalid in the L1 and in the victim buffer, and the write is outstanding no
more (R561). -/
def State.lineLost (s : State) (c : CoreId) (line : Nat) : State :=
  let s := match (s.core c).l1Way line with
    | some i => s.l1Drop c i
    | none => s
  let s := s.modCore c (fun k => { k with
    victim := match k.victim with | some v => if v.line = line then none else some v | none => none })
  s.modTw (trackIdx c) (fun w => { w with track := w.track.filter (fun e => !(e.posted && decide (e.fpa / 64 = line))) })

/-- A write-back meets an error response: its bytes are lost, the line is invalid, and the step is struck, or ends as a
program error for a host error completion (R561). -/
def execWritebackErrorResponse (t : TId) (line : BitVec 45) (hostErr : Bool) (s : State) : Out :=
  let s := s.lineLost (.tower t) (line.toNat / 64 + s.self * 2 ^ 39)
  .next (if hostErr then (s.setF Reg.hstStatHosterr 1).programError t.toNat else s.strike t.toNat)

end Sys2Proof.Machine
end

