-- ==== Sys2Proof/Machine/MemRows.lean ====
section
/-! DEFINITION. Answers to requests and what the memory does on its own (11_access_engines_and_memory.md). -/

namespace Sys2Proof.Machine

/-- The tracker and entry in use with a tag. -/
def State.tracked (s : State) (t tag : Nat) : Option (Nat × Track) :=
  (trackersOf t).findSome? (fun i =>
    ((s.tw i).track.find? (fun e => decide (e.tag = tag) && !e.done)).map (fun e => (i, e)))

/-- The core whose tracker has this number. -/
def trackCore (i : Nat) : CoreId := if i < 128 then .tower (BitVec.ofNat 7 i) else .keep (decide (i = 129))

/-- An entry of a tracker has become free, or a write has been accepted: a line that the victim buffer holds is sent if it can
be (R308, R350). -/
def State.victimGoes (s : State) (i : Nat) : State :=
  if s.lsuActs (trackCore i) then (s.drainVictim (trackCore i)).2 else s

/-- The entry is answered: a posted write leaves the tracker, any other waits for its instruction to take the answer
(R349). -/
def State.answer (s : State) (i tag : Nat) (data : List Byte) : State :=
  (s.modTw i (fun w => { w with track := w.track.filterMap (fun e =>
    if e.tag = tag ∧ e.done = false then (if e.posted || e.orphan then none else some { e with done := true, data := data })
    else some e) })).victimGoes i

/-- The entry is freed without an answer; its requester's instruction is abandoned (R352, R427). -/
def State.dropTrack (s : State) (i tag : Nat) : State :=
  match (s.tw i).track.find? (fun e => decide (e.tag = tag) && !e.done) with
  | none => s
  | some e =>
    let s := s.modTw i (fun w => { w with track := w.track.filter (fun x => !(decide (x.tag = tag) && !x.done)) })
    if e.posted || e.orphan then s else s.ungate i e.who

/-- The step that issued a request is struck, if the Tower still runs it; a Keep core runs none. -/
def State.strikeTrack (s : State) (i : Nat) (e : Track) : State := if i < 128 ∧ e.gone = none then s.strike i else s

/-- A write gets an error response; where it is a line's write-back, the line is invalid (R561). -/
def State.writeFails (s : State) (i : Nat) (e : Track) : State :=
  if e.isBack && !e.orphan then s.lineLost (trackCore i) (e.fpa / 64) else s

/-- A completion of the host die: read data is delivered, or the write is accepted and visible (R349, R353). -/
def execRequestCompletion (t : TId) (tag : BitVec 13) (s : State) : Out :=
  .next (match s.tracked t.toNat tag.toNat with
    | none => s
    | some (i, e) =>
      if s.place e.fpa ≠ .hostWin then s
      else
        let s := s.landLate
        let a := s.hostAddr (e.fpa % 2 ^ 45)
        if e.write then (s.storeHost a e.data).answer i tag.toNat []
        else s.answer i tag.toNat (s.loadHost a e.len))

/-- An error completion of the host die ends the issuing step as a program error (R352). -/
def execHostErrorCompletion (t : TId) (tag : BitVec 13) (s : State) : Out :=
  .next (match s.tracked t.toNat tag.toNat with
    | none => s
    | some (i, e) =>
      if s.place e.fpa ≠ .hostWin then s
      else
        let s := ((s.setF Reg.hstStatHosterr 1).dropTrack i tag.toNat).writeFails i e
        if i < 128 ∧ e.gone = none then s.programError i else s)

/-- No completion within `HST_CTRL.TIMEOUT`: the step is struck; an abandoned write may land now, at a later time, or not
(R352). -/
def execHostWindowTimeout (t : TId) (tag : BitVec 13) (s : State) : Out :=
  .next (match s.tracked t.toNat tag.toNat with
    | none => s
    | some (i, e) =>
      if s.place e.fpa ≠ .hostWin then s
      else
        let s := ((s.setF Reg.hstStatTimeout 1).dropTrack i tag.toNat).writeFails i e
        let s :=
          if e.write then { s with lateWrites := s.lateWrites ++ [(s.hostAddr (e.fpa % 2 ^ 45), e.data)] }.landLate else s
        s.strikeTrack i e)

/-- A correction in a device's granule (R359). -/
def State.devCorrected (s : State) (lpa : Nat) : State := match s.devOf lpa with
  | some d =>
    let s := (s.satF (Reg.memDevCe d) 1).bump .devCe d 1
    { s with rel := { s.rel with teleMemCe := satAdd 32 s.rel.teleMemCe 1 } }
  | none => s

/-- An error response to a request of Tower `t` (R360). -/
def State.memError (s : State) (t : Nat) : State := (s.satF Reg.memUeCntCount 1).strike t

/-- Corrections in words of a Tower store (R508, R521). -/
def State.towerCorrected (s : State) (home n : Nat) : State :=
  let s := s.bump .towerCe home n
  { s with rel := { s.rel with teleTowerCe := satAdd 32 s.rel.teleTowerCe n } }

/-- The store of Tower `home` performs a request of Tower `t` for part of one granule: a read meets what its words' ECC finds, of which
an uncorrectable error strikes the step; a write replaces what it covers (R353, R505, R506, R508). -/
def State.storeRequest (s : State) (t home a : Nat) (write : Bool) (bs : List Byte) (ecc : EccResult) : State :=
  if write then (s.writePiece t a bs).2
  else
    let found := s.badIn a bs.length
    if found || decide (ecc = .uncorrectable) then
      let s := if found then s else { s with badWords := Tab.set s.badWords (a / 8) .uncorrectable }
      (s.ueMet t a).strike t
    else if ecc = .corrected then s.towerCorrected home 1
    else s

/-- The home of a request of a Tower for part of one granule performs it: at a memory controller interface retries, silence and loss,
the check word, the read-modify-write of a partial write, poison (R353, R358–R360, R366, R560); at a Tower store its ECC (R505). -/
def execMemoryRequest (t : TId) (write : Bool) (lpa : BitVec 45) (data : List Byte) (ecc : EccResult)
    (crcFails : BitVec 3) (s : State) : Out := onMesh s fun s =>
  let a := lpa.toNat
  let g := a / 64 * 64
  let bs := data.take (64 - a % 64)
  .next (match s.lpaPlace a with
  | .store home => s.storeRequest t.toNat home a write bs ecc
  | .device =>
    match s.devOf a with
    | none => s
    | some d =>
      let s := if crcFails = 0 then s else s.satF (Reg.memDevCrcRetry d) (min 4 crcFails.toNat)
      if s.lost a || s.silent a || decide (5 ≤ crcFails.toNat) then s.memError t.toNat
      else
        let reads := !write || decide (bs.length ≠ 64)
        if reads && (Tab.has s.bad (g / 64) || decide (ecc = .uncorrectable)) then
          let s := if Tab.has s.bad (g / 64) then s else { s with bad := Tab.set s.bad (g / 64) .uncorrectable }
          (s.ueMet t.toNat g).memError t.toNat
        else
          let s := if reads && decide (ecc = .corrected) then s.devCorrected g else s
          if write then { s.store a bs with bad := if bs.length = 64 then Tab.del s.bad (g / 64) else s.bad } else s
  | _ => s)

/-- A device stops answering its controller, or answers again (R560). -/
def execDeviceNotAnswering (dev : BitVec 5) (silent : Bool) (s : State) : Out :=
  let d := dev.toNat
  if 24 ≤ d then .next s
  else
    let now := if Tab.has s.dev.silent d then s.dev.silent else Tab.set s.dev.silent d s.roll.passed
    let quiet := if silent then now else Tab.del s.dev.silent d
    .next { s with dev := { s.dev with silent := quiet } }

/-- Frames of each device that hold usable pages (R362). -/
def State.framesUsed (s : State) : Nat :=
  let n := s.dev.order.length
  if n = 0 then 0 else s.f Reg.memSizeSize / 65536 / n

/-- The page of frame `b` on position `i` of L (R362). -/
def pageAt (n i b : Nat) : Nat :=
  let h := (nfld b 4 0) ^^^ (nfld b 9 5) ^^^ (nfld b 14 10) ^^^ (nfld b 19 15)
  n * b + (i + n - h % n) % n

/-- The Keep copies the next page of a device that is being retired; what cannot be read is written poisoned, and after
the last page the device is retired, and its event record tells how the copy went: 0 whole, 2 with poisoned granules (R364, R521;
log entry 30). -/
def execDeviceMigrationPage (s : State) : Out :=
  .next (match s.dev.moved, s.dev.copied with
    | some d, some k =>
      match s.dev.order.findIdx? (· = d) with
      | none => s
      | some i =>
        let lpa := pageAt s.dev.order.length i k * 65536
        let dead := Tab.has s.dev.silent d
        let gs := range (lpa / 64) 1024
        let poor := if dead then gs else gs.filter (Tab.has s.bad)
        let s := overList (poor.filter (fun g => decide (Tab.find s.bad g = some .uncorrectable)))
          (fun g s => s.ueMet 128 (g * 64)) s
        let s := { s with bad := overList poor (fun g b => Tab.set b g .poisoned) s.bad }
        let s := if poor = [] then s else s.satF Reg.memPoisonCntCount poor.length
        let s := { s with dev := { s.dev with copied := some (k + 1), poor := s.dev.poor || decide (poor ≠ []) } }
        if k + 1 < s.framesUsed then s
        else
          let s := { s with dev := { s.dev with copied := none } }
          ((s.setF Reg.memStatMigrating 0).setF (Reg.memDevState d) 2).event 0x20 (partDevice d)
            (leBytes 1 s.dev.why ++ leBytes 1 (if s.dev.poor then 2 else 0))
    | _, _ => s)

/-- Drift tracking of a channel: a failure counts for the device's judgement (R368, R508). -/
def execDriftTracking (dev : BitVec 5) (chan : BitVec 2) (ok : Bool) (s : State) : Out :=
  .next (if ok ∨ 24 ≤ dev.toNat then s else s.bump .drift (dev.toNat * 4 + chan.toNat) 1)

/-- A scrub read of a granule of device memory or of a word of a store: a correction is written back, an uncorrectable
error changes nothing and strikes no step; both count (R507, R508). -/
def execScrubRead (lpa : BitVec 45) (ecc : EccResult) (s : State) : Out :=
  let a := lpa.toNat
  .next (match s.lpaPlace a with
    | .device =>
      if s.lost a || s.silent a || Tab.has s.bad (a / 64) then s
      else match ecc with
        | .clean => s
        | .corrected => s.devCorrected a
        | .uncorrectable => { s with bad := Tab.set s.bad (a / 64) .uncorrectable }.ueMet 128 (a / 64 * 64)
    | .store t =>
      let w := a / 8
      let forget := fun (s : State) => { s with rel := { s.rel with scrubFix := Tab.del s.rel.scrubFix w } }
      if Tab.has s.badWords w then s
      else match ecc with
        | .clean => forget s
        | .corrected =>
          let n := Tab.get 0 s.rel.scrubFix w + 1
          let s := s.towerCorrected t 1
          let s := { s with rel := { s.rel with scrubFix := Tab.set s.rel.scrubFix w n } }
          if 3 ≤ n then s.judge (partTower t) 3 n else s
        | .uncorrectable => forget ({ s with badWords := Tab.set s.badWords w .uncorrectable }.ueMet 128 (w * 8))
    | _ => s)

end Sys2Proof.Machine
end

