-- ==== Sys2Proof/Machine/Fabric.lean ====
section
/-! DEFINITION. The router and remote transactions (R419–R427). -/

namespace Sys2Proof.Machine

/-! Packet kinds (R420). -/

def pktRequest (k : Packet) : Bool := decide (k.type ∈ [1, 2])
def pktResponse (k : Packet) : Bool := decide (k.type ∈ [3, 4, 5, 6])

/-- A response to a request: its tag and granule are those of the request (R419; log entry 36). -/
def State.respond (s : State) (k : Packet) (type code : Nat) (data : List Byte) : State :=
  let r : Packet :=
    { type := BitVec.ofNat 4 type, vc := 2, detour := 0, pin := false, dest := k.src,
      src := BitVec.ofNat 12 s.self, tower := k.tower, tag := k.tag, off := k.off, len := k.len, lpa := k.lpa,
      arg := BitVec.ofNat 17 code, data := data }
  { s with outbox := s.outbox ++ [r] }

/-! Routing (R421–R424). -/

/-- A packet that cannot go on: counted, and a request is answered with ERROR 0x03 (R424). -/
def State.dropPacket (s : State) (k : Packet) : State :=
  let s := s.satF Reg.gwlUnreachCntCount 1
  if pktRequest k then s.respond k 6 3 [] else s

/-- The hash of R421. -/
def pktHash (k : Packet) : Nat :=
  let l := k.lpa.toNat
  k.dest.toNat ^^^ nfld l 27 16 ^^^ nfld l 39 28 ^^^ nfld l 44 40

/-- The port of a direction by weight: ACTIVE 2, DEGRADED 1 (R421). -/
def State.pickPort (s : State) (d : Nat) (k : Packet) : Option Nat :=
  let ws := (s.usable d).map (fun p => (p, if s.portState p = 2 then 2 else 1))
  let total := (ws.map (·.2)).foldl (· + ·) 0
  let h := pktHash k % total
  let r : Nat × Option Nat := ws.foldl (fun (a : Nat × Option Nat) w =>
    (a.1 + w.2, match a.2 with | some p => some p | none => if h < a.1 + w.2 then some w.1 else none)) (0, none)
  r.2

/-- The direction of R421 in a dimension. -/
def State.dirTo (s : State) (m d : Nat) : Nat :=
  let z := s.ring d
  let diff := (coord m d + z - coord s.self d) % z
  if 2 * diff ≤ z then d else d + 3

/-- A hop in direction `dir` crosses its ring's dateline (R422). -/
def State.crosses (s : State) (dir : Nat) : Bool :=
  let d := dir % 3
  if dir < 3 then decide (coord s.self d = s.ring d - 1) else decide (coord s.self d = 0)

/-- VC of the next hop (R422, R423). `inDir` is the direction of the port it came by, 6 and above for none. -/
def State.hopVc (s : State) (k : Packet) (inDir dir : Nat) : Nat :=
  let base := if pktRequest k then 0 else 2
  if k.detour ≠ 0 then 4 + b2n (!pktRequest k)
  else
    let past := decide (inDir < 6) && decide (inDir % 3 = dir % 3) && k.vc.getLsbD 0
    base + b2n (past || s.crosses dir)

/-- Sends a packet one hop in a usable direction. -/
def State.hop (s : State) (k : Packet) (inDir dir : Nat) : State :=
  match s.pickPort dir k with
  | none => s.dropPacket k
  | some p => s.enqueue p { k with vc := BitVec.ofNat 3 (s.hopVc k inDir dir) }

/-- The direction of R421 is unusable (R423, R424). -/
def State.detour (s : State) (k : Packet) (inDir dir : Nat) : State :=
  if !s.fb Reg.gwlCtrlDetourEn || decide (k.detour = 3) then s.dropPacket k
  else if !k.pin && decide (s.usable ((dir + 3) % 6) ≠ []) then
    s.hop { k with pin := true, detour := k.detour + 1 } inDir ((dir + 3) % 6)
  else
    let d := (dir % 3 + 1) % 3
    let k := { k with pin := false, detour := k.detour + 1 }
    if s.usable d ≠ [] then s.hop k inDir d
    else if s.usable (d + 3) ≠ [] then s.hop k inDir (d + 3)
    else s.dropPacket k

/-- The first dimension in which the packet has not reached its target, X first. -/
def State.routeDim (s : State) (m : Nat) : Option Nat :=
  (range 0 3).find? (fun d => decide (coord m d ≠ coord s.self d))

/-- Routes a request or response (R421–R424). A pinned packet keeps its direction within a dimension. -/
def State.route (s : State) (k : Packet) (inDir : Nat) : State :=
  match s.routeDim k.dest.toNat with
  | none => { s with inbox := s.inbox ++ [k] }
  | some d =>
    let keeps := k.pin && decide (inDir < 6) && decide (inDir % 3 = d)
    let k := { k with pin := keeps }
    let dir := if keeps then (inDir + 3) % 6 else s.dirTo k.dest.toNat d
    if s.usable dir ≠ [] then s.hop k inDir dir else s.detour k inDir dir

/-- The packet leaves the buffer that holds it: a port's, whose slots are freed (R414), or this module's own. One accepted before the
link trained anew holds no slot of it (R417). -/
def State.takePacket (s : State) (inDir : Nat) (k : Packet) : State :=
  if 6 ≤ inDir then { s with outbox := removeOne k s.outbox }
  else match ([inDir, inDir + 6, inDir + 12].find? (fun p => (s.port p).rx.contains k)) with
    | none => match ([inDir, inDir + 6, inDir + 12].find? (fun p => (s.port p).old.contains k)) with
      | none => s
      | some p => s.modPort p (fun x => { x with old := removeOne k x.old })
    | some p =>
      let vc := k.vc.toNat
      let s := s.modPort p (fun x => { x with rx := removeOne k x.rx,
                                              freed := Tab.set x.freed vc ((Tab.get 0 x.freed vc + pktSlots k) % 65536) })
      s.sendControl p false

/-- The router takes a packet: it discards a reserved TYPE; collective and ALIGN packets end their one hop here; others
go on or reach this module (R420–R424). -/
def execPacketRoute (inDir : BitVec 3) (pk : Packet) (s : State) : Out := onMesh s fun s =>
  let s := s.takePacket inDir.toNat pk
  .next (if pktRequest pk || pktResponse pk then s.route pk inDir.toNat
    else if pk.type ∈ [8, 9, 10] then s
    else s.satF Reg.gwlUnreachCntCount 1)

/-! The home of a request (R426, R37, R353). -/

/-- The request leaves the inbox. -/
def State.takeInbox (s : State) (k : Packet) : State := { s with inbox := removeOne k s.inbox }

/-- REFUSED, counted (R426). -/
def State.refuse (s : State) (k : Packet) : State := (s.satF Reg.gwlRefusedCntCount 1).respond k 5 0 []

/-- This module lets another reach the place (R37). -/
def State.reachable (s : State) (a : Nat) : Bool := match s.lpaPlace a with
  | .device | .store _ => true
  | _ => false

/-- READ at its home (R425, R426). -/
def execRead (pk : Packet) (s : State) : Out := onMesh s fun s =>
  let s := s.takeInbox pk
  let a := pk.lpa.toNat / 64 * 64
  .next (if s.reachable a = false then s.refuse pk
    else
      let lost := decide (a < 0x100000000000) && s.lost a
      let (bs, e, s) := s.readMem 128 a 64
      if e then s.respond pk 6 (if lost then 2 else 1) [] else s.respond pk 3 0 bs)

/-- WRITE at its home: ACCEPT once accepted (R353, R425, R426). -/
def execWrite (pk : Packet) (s : State) : Out := onMesh s fun s =>
  let s := s.takeInbox pk
  let a := pk.lpa.toNat / 64 * 64 + pk.off.toNat
  let n := min (pk.len.toNat + 1) (64 - pk.off.toNat)
  .next (if s.reachable a = false then s.refuse pk
    else
      let lost := decide (a < 0x100000000000) && s.lost a
      let (e, s) := s.writePiece 128 a (padTo n (pk.data.drop (pk.off.toNat % 16)))
      if e then s.respond pk 6 (if lost then 2 else 1) [] else s.respond pk 4 0 [])

/-! Responses at the requester (R427). -/

/-- The remote request with the packet's TOWER and TAG. -/
def State.trackedRemote (s : State) (t tag : Nat) : Option (Nat × Track) :=
  match s.tracked t tag with
  | some (i, e) => match s.place e.fpa with
    | .remote _ => some (i, e)
    | _ => none
  | none => none

/-- DATA delivers the granule (R425). -/
def execData (pk : Packet) (s : State) : Out := onMesh s fun s =>
  let s := s.takeInbox pk
  .next (match s.trackedRemote pk.tower.toNat pk.tag.toNat with
    | none => s.lateAnswer pk.tower.toNat pk.tag.toNat
    | some (i, e) => if e.write then s else s.answer i pk.tag.toNat (padTo e.len (pk.data.drop (e.fpa % 64))))

/-- ACCEPT: the write is accepted (R353, R425). -/
def execAccept (pk : Packet) (s : State) : Out := onMesh s fun s =>
  let s := s.takeInbox pk
  .next (match s.trackedRemote pk.tower.toNat pk.tag.toNat with
    | none => s.lateAnswer pk.tower.toNat pk.tag.toNat
    | some (i, e) => if e.write then s.answer i pk.tag.toNat [] else s)

/-- A hole stops the stream slot whose request met it (R344). -/
def State.holeStops (s : State) (i : Nat) (e : Track) : State :=
  if e.who < 4 ∨ e.orphan = true then s else s.modSlot i (e.who - 4) (fun l => { l with stopped := 1 })

/-- REFUSED: a physical-hole fault that carries the remote module (R37, R427). -/
def execRefused (pk : Packet) (s : State) : Out := onMesh s fun s =>
  let s := s.takeInbox pk
  .next (match s.trackedRemote pk.tower.toNat pk.tag.toNat with
    | none => s.lateAnswer pk.tower.toNat pk.tag.toNat
    | some (i, e) =>
      let s := (s.dropTrack i pk.tag.toNat).writeFails i e
      if 128 ≤ i ∨ e.gone ≠ none then s
      else (s.holeStops i e).holeFault i e.who (if e.write then .write else .read) e.fpa e.dva false)

/-- ERROR strikes the step that issued the request (R427); code 0x04 has the effect of a physical-hole fault with PART
(R33, R391). -/
def execError (pk : Packet) (s : State) : Out := onMesh s fun s =>
  let s := s.takeInbox pk
  .next (match s.trackedRemote pk.tower.toNat pk.tag.toNat with
    | none => s.lateAnswer pk.tower.toNat pk.tag.toNat
    | some (i, e) =>
      let s := (s.dropTrack i pk.tag.toNat).writeFails i e
      if e.gone ≠ none then s
      else if i < 128 ∧ pk.arg.toNat % 256 = 4 then (s.holeStops i e).holeFault i e.who (if e.write then .write else .read) e.fpa e.dva true
      else s.strikeTrack i e)

/-- No response within `GWL_CTRL.TIMEOUT` (R427): a response that comes later is discarded, so the tag waits for it. -/
def execRemoteTimeout (t : TId) (tag : BitVec 13) (s : State) : Out := onMesh s fun s =>
  .next (match s.trackedRemote t.toNat tag.toNat with
    | none => s
    | some (i, e) =>
      let s := (((s.dropTrack i tag.toNat).writeFails i e).satF Reg.gwlTimeoutCntCount 1).strikeTrack i e
      s.modTw i (fun w => { w with late := w.late ++ [tag.toNat] }))

/-- The Tower whose store is retired: requests to it that have reached this module and had not completed, in the inbox or in a port's
buffer, are answered with ERROR 0x04 (R33, R426). -/
def State.abandonInbox (s : State) (t : Nat) : State :=
  let hits := fun (l : List Packet) => l.filter (fun k => pktRequest k && decide (s.lpaPlace k.lpa.toNat = .store t))
  let here := fun (k : Packet) => (s.routeDim k.dest.toNat).isNone
  let s' := overList (hits s.inbox) (fun k s => (s.takeInbox k).respond k 6 4 []) s
  overList (range 0 18) (fun p s' =>
    overList (hits (((s.port p).rx ++ (s.port p).old).filter here)) (fun k s => (s.takePacket (p % 6) k).respond k 6 4 []) s') s'

end Sys2Proof.Machine
end

