-- ==== Sys2Proof/Machine/FloatAlu.lean ====
section
/-! DEFINITION. Scalar floating-point instructions (R279–R283), one meaning each. -/

namespace Sys2Proof.Machine

/-- The format FMT names. -/
def fpFmt (dbl : Bool) : FFmt := if dbl then .b64 else .b32

/-- An f register as an encoding: a binary32 operand is bits [31:0] (R260). -/
def Core.fbitsOf (k : Core) (dbl : Bool) (r : GReg) : Nat := (k.getF r).toNat % 2 ^ (fpFmt dbl).width

/-- The value of an f register. -/
def Core.fval (k : Core) (dbl : Bool) (r : GReg) : Val := (fpFmt dbl).dec (k.fbitsOf dbl r)

/-- ORs flags into `fpcsr` (R85). -/
def Core.raise (k : Core) (f : Fl) : Core := { k with fpcsr := k.fpcsr ||| BitVec.ofNat 64 f.bits }

/-- Current mode of the core (R262). -/
def Core.curRm (k : Core) (rm : Rm) : Rm := rmResolve rm (fld k.fpcsr 7 5)

/-- A floating instruction completes with an f result; a binary32 result zeroes bits [63:32] (R260). -/
def fpDone (c : CoreId) (d : GReg) (r : Nat × Fl) (s : State) : Out :=
  .next (s.retire c (((s.core c).setF d (BitVec.ofNat 64 r.1)).raise r.2))

/-- A floating instruction completes with a g result. -/
def fpDoneG (c : CoreId) (d : GReg) (r : Dword × Fl) (s : State) : Out :=
  .next (s.retire c (((s.core c).setG d r.1).raise r.2))

/-- Two values to an f result under a mode. -/
def fp2 (c : CoreId) (d a b : GReg) (rm : Rm) (dbl : Bool) (op : FFmt → Rm → Val → Val → Nat × Fl) (s : State) : Out :=
  onCore c s fun s =>
    let k := s.core c
    fpDone c d (op (fpFmt dbl) (k.curRm rm) (k.fval dbl a) (k.fval dbl b)) s

/-- Two encodings to an f result. -/
def fpBits2 (c : CoreId) (d a b : GReg) (dbl : Bool) (op : FFmt → Nat → Nat → Nat × Fl) (s : State) : Out :=
  onCore c s fun s =>
    let k := s.core c
    fpDone c d (op (fpFmt dbl) (k.fbitsOf dbl a) (k.fbitsOf dbl b)) s

/-- A fused multiply-add with the signs of its product and addend (R279). -/
def fused (c : CoreId) (d a b e : GReg) (rm : Rm) (dbl np nc : Bool) (s : State) : Out :=
  onCore c s fun s =>
    let k := s.core c
    let x := k.fval dbl a
    let z := k.fval dbl e
    fpDone c d ((fpFmt dbl).fmaV (k.curRm rm) false (if np then x.flip else x) (k.fval dbl b)
      (if nc then z.flip else z)) s

/-- `fcmp` sets exactly one flag (R280). -/
def fcompare (c : CoreId) (a b : GReg) (dbl signalling : Bool) (s : State) : Out :=
  onCore c s fun s =>
    let k := s.core c
    let x := k.fval dbl a
    let y := k.fval dbl b
    let r := Val.cmp x y
    let nv := if signalling then x.isNan || y.isNan else x.isSig || y.isSig
    let fl := setFlags k.flags (decide (r = some .lt)) (decide (r = some .eq)) (decide (r = some .gt)) (decide (r = none))
    .next (s.retire c ({ k with flags := fl }.raise { nv := nv }))

/-- A quiet bit operation on the sign (R279): no flag even for a signalling NaN. -/
def fsign (c : CoreId) (d a : GReg) (dbl : Bool) (op : Nat → Nat → Nat) (s : State) : Out :=
  onCore c s fun s =>
    let h := 2 ^ ((fpFmt dbl).width - 1)
    fpDone c d (op h ((s.core c).fbitsOf dbl a), {}) s

/-- `fadd` (R279). -/
def execFadd (c : CoreId) (d a b : GReg) (rm : Rm) (dbl : Bool) (s : State) : Out :=
  fp2 c d a b rm dbl (fun F r x y => F.addV r false x y) s

/-- `fsub`: A + (−B); a NaN operand keeps its sign (R90). -/
def execFsub (c : CoreId) (d a b : GReg) (rm : Rm) (dbl : Bool) (s : State) : Out :=
  fp2 c d a b rm dbl (fun F r x y => F.addV r false x y.flip) s

/-- `fmul` (R279). -/
def execFmul (c : CoreId) (d a b : GReg) (rm : Rm) (dbl : Bool) (s : State) : Out :=
  fp2 c d a b rm dbl (fun F r x y => F.mulV r false x y) s

/-- `fdiv` (R279). -/
def execFdiv (c : CoreId) (d a b : GReg) (rm : Rm) (dbl : Bool) (s : State) : Out :=
  fp2 c d a b rm dbl (fun F r x y => F.divV r false x y) s

/-- `fsqrt` (R279). -/
def execFsqrt (c : CoreId) (d a : GReg) (rm : Rm) (dbl : Bool) (s : State) : Out :=
  onCore c s fun s => fpDone c d ((fpFmt dbl).sqrtV ((s.core c).curRm rm) false ((s.core c).fval dbl a)) s

/-- `frem`: IEEE remainder (R279). -/
def execFrem (c : CoreId) (d a b : GReg) (dbl : Bool) (s : State) : Out :=
  fp2 c d a b .rne dbl (fun F _ x y => F.remV x y) s

/-- `fmin` (R95). -/
def execFmin (c : CoreId) (d a b : GReg) (dbl : Bool) (s : State) : Out :=
  fpBits2 c d a b dbl (fun F x y => F.minmax false x y) s
/-- `fmax` (R95). -/
def execFmax (c : CoreId) (d a b : GReg) (dbl : Bool) (s : State) : Out :=
  fpBits2 c d a b dbl (fun F x y => F.minmax true x y) s
/-- `fminnum`: minimumNumber (R279). -/
def execFminnum (c : CoreId) (d a b : GReg) (dbl : Bool) (s : State) : Out :=
  fpBits2 c d a b dbl (fun F x y => F.minmaxNum false x y) s
/-- `fmaxnum`: maximumNumber (R279). -/
def execFmaxnum (c : CoreId) (d a b : GReg) (dbl : Bool) (s : State) : Out :=
  fpBits2 c d a b dbl (fun F x y => F.minmaxNum true x y) s

/-- `frint` (R279). -/
def execFrint (c : CoreId) (d a : GReg) (rm : Rm) (dbl : Bool) (s : State) : Out :=
  onCore c s fun s => fpDone c d ((fpFmt dbl).rint ((s.core c).curRm rm) false ((s.core c).fval dbl a)) s
/-- `frintx` also sets NX (R279). -/
def execFrintx (c : CoreId) (d a : GReg) (rm : Rm) (dbl : Bool) (s : State) : Out :=
  onCore c s fun s => fpDone c d ((fpFmt dbl).rint ((s.core c).curRm rm) true ((s.core c).fval dbl a)) s

/-- `fnextup` (R279). -/
def execFnextup (c : CoreId) (d a : GReg) (dbl : Bool) (s : State) : Out :=
  onCore c s fun s => fpDone c d ((fpFmt dbl).nextUp ((s.core c).fbitsOf dbl a)) s
/-- `fnextdn` (R279). -/
def execFnextdn (c : CoreId) (d a : GReg) (dbl : Bool) (s : State) : Out :=
  onCore c s fun s => fpDone c d ((fpFmt dbl).nextDown ((s.core c).fbitsOf dbl a)) s

/-- `fscaleb`: A × 2^gB (R279). -/
def execFscaleb (c : CoreId) (d a b : GReg) (rm : Rm) (dbl : Bool) (s : State) : Out :=
  onCore c s fun s =>
    let k := s.core c
    fpDone c d ((fpFmt dbl).scaleb (k.curRm rm) (k.fval dbl a) (k.getG b).toInt) s

/-- `flogb` to gD. Of a zero, an infinity or a NaN the result is a free value outside ±2 × (emax + p − 1), with NV
(R80; log entry 20). -/
def execFlogb (c : CoreId) (d a : GReg) (dbl : Bool) (s : State) : Out :=
  onCore c s fun s =>
    match ((s.core c).fval dbl a).logb with
    | some i => fpDoneG c d (dw i, {}) s
    | none =>
      let (v, s) := s.free
      let F := fpFmt dbl
      fpDoneG c d (beyond (2 * (F.emax.toNat + F.fbits)) v, { nv := true }) s

/-- `fneg` (R279). -/
def execFneg (c : CoreId) (d a : GReg) (dbl : Bool) (s : State) : Out :=
  fsign c d a dbl (fun h x => if x < h then x + h else x - h) s
/-- `fabs` (R279). -/
def execFabs (c : CoreId) (d a : GReg) (dbl : Bool) (s : State) : Out := fsign c d a dbl (fun h x => x % h) s
/-- `fsgnj`: copySign(A, B) (R279). -/
def execFsgnj (c : CoreId) (d a b : GReg) (dbl : Bool) (s : State) : Out :=
  fpBits2 c d a b dbl (fun F x y =>
    let h := 2 ^ (F.width - 1)
    (x % h + y / h * h, {})) s

/-- `fclass` writes the class mask to gD (R281). -/
def execFclass (c : CoreId) (d a : GReg) (dbl : Bool) (s : State) : Out :=
  onCore c s fun s =>
    fpDoneG c d (BitVec.ofNat 64 (2 ^ (fpFmt dbl).classBit ((s.core c).fbitsOf dbl a)), {}) s

/-- `fcmp`: quiet (R280, R94). -/
def execFcmp (c : CoreId) (a b : GReg) (dbl : Bool) (s : State) : Out := fcompare c a b dbl false s
/-- `fcmpe`: signalling (R280, R94). -/
def execFcmpe (c : CoreId) (a b : GReg) (dbl : Bool) (s : State) : Out := fcompare c a b dbl true s

/-- `ftot`: totalOrder (R279). -/
def execFtot (c : CoreId) (d a b : GReg) (dbl : Bool) (s : State) : Out :=
  onCore c s fun s =>
    let k := s.core c
    let F := fpFmt dbl
    fpDoneG c d (BitVec.ofNat 64 (b2n (decide (F.totalKey (k.fbitsOf dbl a) ≤ F.totalKey (k.fbitsOf dbl b)))), {}) s
/-- `ftotm`: totalOrderMag (R279). -/
def execFtotm (c : CoreId) (d a b : GReg) (dbl : Bool) (s : State) : Out :=
  onCore c s fun s =>
    let k := s.core c
    let h := 2 ^ ((fpFmt dbl).width - 1)
    fpDoneG c d (BitVec.ofNat 64 (b2n (decide (k.fbitsOf dbl a % h ≤ k.fbitsOf dbl b % h))), {}) s

/-- `fcvt.ff`: FMT names the source (R279). -/
def execFcvtFf (c : CoreId) (d a : GReg) (rm : Rm) (dbl : Bool) (s : State) : Out :=
  onCore c s fun s =>
    let k := s.core c
    fpDone c d (toFloat (fpFmt dbl) (fpFmt (!dbl)) (k.curRm rm) false (k.fval dbl a)) s

/-- `fcvt.if`: with X = 0 it never sets NX; a binary result of 32 bits is sign- or zero-extended to gD (R282). -/
def execFcvtIf (c : CoreId) (d a : GReg) (rm : Rm) (dbl x sgn w64 : Bool) (s : State) : Out :=
  onCore c s fun s =>
    let k := s.core c
    let (i, f) := toInt (if w64 then 64 else 32) sgn (k.curRm rm) (k.fval dbl a)
    fpDoneG c d (dw i, { f with nx := f.nx && x, sat := 0 }) s

/-- `fcvt.fi` (R279, R106). -/
def execFcvtFi (c : CoreId) (d a : GReg) (rm : Rm) (dbl sgn w64 : Bool) (s : State) : Out :=
  onCore c s fun s =>
    let k := s.core c
    let n := (k.getG a).toNat % (if w64 then 2 ^ 64 else 2 ^ 32)
    let i := if sgn then sext (if w64 then 64 else 32) n else (n : Int)
    fpDone c d (intToFloat (fpFmt dbl) (k.curRm rm) false i) s

/-- A × B + C, rounded once (R279). -/
def execFusedMulAdd (c : CoreId) (d a b cc : GReg) (rm : Rm) (dbl : Bool) (s : State) : Out :=
  fused c d a b cc rm dbl false false s

/-- A × B − C, rounded once (R279). -/
def execFusedMulSub (c : CoreId) (d a b cc : GReg) (rm : Rm) (dbl : Bool) (s : State) : Out :=
  fused c d a b cc rm dbl false true s

/-- −(A × B) + C, rounded once (R279). -/
def execFusedNegMulAdd (c : CoreId) (d a b cc : GReg) (rm : Rm) (dbl : Bool) (s : State) : Out :=
  fused c d a b cc rm dbl true false s

/-- −(A × B) − C, rounded once (R279). -/
def execFusedNegMulSub (c : CoreId) (d a b cc : GReg) (rm : Rm) (dbl : Bool) (s : State) : Out :=
  fused c d a b cc rm dbl true true s

end Sys2Proof.Machine
end

