-- ==== Sys2Proof/Machine/QOps.lean ====
section
/-! DEFINITION. Short-vector q operations (R284), one meaning each. -/

namespace Sys2Proof.Machine

/-- Lane formats by LF code (R284). -/
def qFmt (lf : R3) : Fmt := match lf.toNat with
  | 0 => .int8 | 1 => .int16 | 2 => .int32 | 3 => .int64 | 4 => .b32 | 5 => .b64 | 6 => .c32 | _ => .c64

/-- Lanes that an operation covers. -/
def qLanes (w : Bool) (f : Fmt) : Nat := (if w then 128 else 64) / fmtBits f

/-- Lane `i` of a register. -/
def lane (f : Fmt) (x : Nat) (i : Nat) : Nat := x / 2 ^ (fmtBits f * i) % 2 ^ fmtBits f

/-- A register from its lanes. -/
def unlane (f : Fmt) (ls : List Nat) : Nat := ls.foldr (fun l acc => l % 2 ^ fmtBits f + acc * 2 ^ fmtBits f) 0

def isCplx (f : Fmt) : Bool := match fmtKind f with
  | .cplx _ => true
  | _ => false

/-- Complex binary64 requires W = 1 (R284). -/
def qWidthOk (w : Bool) (lf : R3) : Bool := w || !decide (qFmt lf = .c64)

/-- Writes the low 64 or all 128 bits of qD (R284). -/
def Core.setQW (k : Core) (d : GReg) (w : Bool) (v : Nat) : Core :=
  if w then k.setQ d (BitVec.ofNat 128 v) else k.setF d (BitVec.ofNat 64 v)

/-- A lane-wise operation; `ok` says that the lane format is one the function takes, otherwise the word is an illegal
instruction (R70, R265; log entry 23). -/
def qArith (c : CoreId) (i : Instr) (d a b : GReg) (w : Bool) (lf : R3) (ok : Fmt → Bool) (op : LOp) (s : State) : Out :=
  onCore c s fun s =>
    let k := s.core c
    let f := qFmt lf
    if !(qWidthOk w lf && ok f) then s.illegal c (encode i)
    else
      let rm := k.curRm .dyn
      let rs := (List.range (qLanes w f)).map (fun i =>
        laneOp f op rm false (lane f (k.getQ a).toNat i) (lane f (k.getQ b).toNat i) (lane f (k.getQ d).toNat i))
      let fl : Fl := rs.foldl (fun (acc : Fl) r => acc.or r.2) {}
      .next (s.retire c ((k.setQW d w (unlane f (rs.map (·.1)))).raise { fl with sat := 0 }))

/-- A compare writes one bit per lane to gD. -/
def qCompare (c : CoreId) (i : Instr) (d a b : GReg) (w : Bool) (lf : R3) (ok : Fmt → Bool) (p : Pred) (s : State) : Out :=
  onCore c s fun s =>
    let k := s.core c
    let f := qFmt lf
    if !(qWidthOk w lf && ok f) then s.illegal c (encode i)
    else
      let rs := (List.range (qLanes w f)).map (fun i =>
        lanePred f p (lane f (k.getQ a).toNat i) (lane f (k.getQ b).toNat i))
      let fl : Fl := rs.foldl (fun (acc : Fl) r => acc.or r.2) {}
      let v := rs.foldr (fun r acc => b2n r.1 + 2 * acc) 0
      .next (s.retire c ((k.setG d (BitVec.ofNat 64 v)).raise fl))

/-- `qadd`, part by part on a complex format (R284). -/
def execQadd (c : CoreId) (d a b : GReg) (w : Bool) (lf : R3) (s : State) : Out :=
  qArith c (.qadd c d a b w lf) d a b w lf (fun _ => true) .add s

/-- `qsub` (R284). -/
def execQsub (c : CoreId) (d a b : GReg) (w : Bool) (lf : R3) (s : State) : Out :=
  qArith c (.qsub c d a b w lf) d a b w lf (fun _ => true) .sub s

/-- `qmul` (R284). -/
def execQmul (c : CoreId) (d a b : GReg) (w : Bool) (lf : R3) (s : State) : Out :=
  qArith c (.qmul c d a b w lf) d a b w lf (fun f => !isCplx f) .mul s

/-- `qfma`: qA × qB + qD (R284). -/
def execQfma (c : CoreId) (d a b : GReg) (w : Bool) (lf : R3) (s : State) : Out :=
  qArith c (.qfma c d a b w lf) d a b w lf (fun f => !isCplx f) .fma s

/-- `qmin` (R284). -/
def execQmin (c : CoreId) (d a b : GReg) (w : Bool) (lf : R3) (s : State) : Out :=
  qArith c (.qmin c d a b w lf) d a b w lf (fun f => !isCplx f) .min s

/-- `qmax` (R284). -/
def execQmax (c : CoreId) (d a b : GReg) (w : Bool) (lf : R3) (s : State) : Out :=
  qArith c (.qmax c d a b w lf) d a b w lf (fun f => !isCplx f) .max s

/-- `qand`: bitwise, any lane format (R284). -/
def execQand (c : CoreId) (d a b : GReg) (w : Bool) (lf : R3) (s : State) : Out :=
  onCore c s fun s =>
    let k := s.core c
    if !qWidthOk w lf then s.illegal c (encode (.qand c d a b w lf))
    else .next (s.retire c (k.setQW d w ((k.getQ a) &&& (k.getQ b)).toNat))

/-- `qor`: bitwise, any lane format (R284). -/
def execQor (c : CoreId) (d a b : GReg) (w : Bool) (lf : R3) (s : State) : Out :=
  onCore c s fun s =>
    let k := s.core c
    if !qWidthOk w lf then s.illegal c (encode (.qor c d a b w lf))
    else .next (s.retire c (k.setQW d w ((k.getQ a) ||| (k.getQ b)).toNat))

/-- `qxor`: bitwise, any lane format (R284). -/
def execQxor (c : CoreId) (d a b : GReg) (w : Bool) (lf : R3) (s : State) : Out :=
  onCore c s fun s =>
    let k := s.core c
    if !qWidthOk w lf then s.illegal c (encode (.qxor c d a b w lf))
    else .next (s.retire c (k.setQW d w ((k.getQ a) ^^^ (k.getQ b)).toNat))

/-- `qcmul` (R284). -/
def execQcmul (c : CoreId) (d a b : GReg) (w : Bool) (lf : R3) (s : State) : Out :=
  qArith c (.qcmul c d a b w lf) d a b w lf (isCplx) .cmul s

/-- `qcmac` (R284). -/
def execQcmac (c : CoreId) (d a b : GReg) (w : Bool) (lf : R3) (s : State) : Out :=
  qArith c (.qcmac c d a b w lf) d a b w lf (isCplx) .cmac s

/-- `qconj` (R284). -/
def execQconj (c : CoreId) (d a : GReg) (w : Bool) (lf : R3) (s : State) : Out :=
  qArith c (.qconj c d a w lf) d a a w lf (isCplx) .conj s

/-- `qcmpeq` (R284, R94). -/
def execQcmpeq (c : CoreId) (d a b : GReg) (w : Bool) (lf : R3) (s : State) : Out :=
  qCompare c (.qcmpeq c d a b w lf) d a b w lf (fun _ => true) .eq s

/-- `qcmplt` (R284, R94). -/
def execQcmplt (c : CoreId) (d a b : GReg) (w : Bool) (lf : R3) (s : State) : Out :=
  qCompare c (.qcmplt c d a b w lf) d a b w lf (fun f => !isCplx f) .lt s

/-- `qcmple` (R284, R94). -/
def execQcmple (c : CoreId) (d a b : GReg) (w : Bool) (lf : R3) (s : State) : Out :=
  qCompare c (.qcmple c d a b w lf) d a b w lf (fun f => !isCplx f) .le s

/-- `qcmpun` (R284, R94). -/
def execQcmpun (c : CoreId) (d a b : GReg) (w : Bool) (lf : R3) (s : State) : Out :=
  qCompare c (.qcmpun c d a b w lf) d a b w lf (fun _ => true) .un s

/-- `qdup`: lane 0 of qA in every lane (R284). -/
def execQdup (c : CoreId) (d a : GReg) (w : Bool) (lf : R3) (s : State) : Out :=
  onCore c s fun s =>
    let k := s.core c
    let f := qFmt lf
    if !qWidthOk w lf then s.illegal c (encode (.qdup c d a w lf))
    else .next (s.retire c (k.setQW d w (unlane f (List.replicate (qLanes w f) (lane f (k.getQ a).toNat 0)))))

/-- `qswap` exchanges the halves of qA; W = 1 (R284). -/
def execQswap (c : CoreId) (d a : GReg) (w : Bool) (lf : R3) (s : State) : Out :=
  onCore c s fun s =>
    let k := s.core c
    if !w then s.illegal c (encode (.qswap c d a w lf))
    else
      let v := k.getQ a
      .next (s.retire c (k.setQ d (v.extractLsb' 0 64 ++ v.extractLsb' 64 64)))

end Sys2Proof.Machine
end

