-- ==== Sys2Proof/Machine/DecodeWord.lean ====
section
/-! DEFINITION. The instruction that a 32-bit word spells (R140, R166, R197, R223, R256, R264, R265, R323, R369): the fields
are read by the layout of the word's major opcode and function code, and the word is that instruction only where every
field that must be zero is, so that the instruction's own word is the word read. -/

namespace Sys2Proof.Machine

/-! Fields at their lowest bit. -/

def wG (w : Word) (lo : Nat) : GReg := w.extractLsb' lo 5
def wR (w : Word) (lo : Nat) : R3 := w.extractLsb' lo 3
def wN (w : Word) (hi lo : Nat) : Nat := nfld w.toNat hi lo
def wB (w : Word) (i : Nat) : Bool := w.getLsbD i

/-- The rounding mode of an RM field; codes 5 and 6 are reserved (R82). -/
def rmField (n : Nat) : Option Rm := if n = 7 then some .dyn else rmOfCode n

/-- Integer register ALU (R266). -/
def readAlu (c : CoreId) (w : Word) : Option Instr :=
  let d := wG w 21
  let a := wG w 16
  let b := wG w 11
  let f := wB w 10
  match wN w 5 0 with
  | 0 => some (.add c d a b f)
  | 1 => some (.sub c d a b f)
  | 2 => some (.and c d a b f)
  | 3 => some (.or c d a b f)
  | 4 => some (.xor c d a b f)
  | 5 => some (.sll c d a b f)
  | 6 => some (.srl c d a b f)
  | 7 => some (.sra c d a b f)
  | 8 => some (.mul c d a b f)
  | 9 => some (.mulh c d a b f)
  | 10 => some (.mulhu c d a b f)
  | 11 => some (.div c d a b f)
  | 12 => some (.divu c d a b f)
  | 13 => some (.rem c d a b f)
  | 14 => some (.remu c d a b f)
  | 15 => some (.min c d a b f)
  | 16 => some (.max c d a b f)
  | 17 => some (.minu c d a b f)
  | 18 => some (.maxu c d a b f)
  | 19 => some (.adc c d a b f)
  | 20 => some (.sbc c d a b f)
  | 21 => some (.clz c d a f)
  | 22 => some (.ctz c d a f)
  | 23 => some (.popc c d a f)
  | _ => none

/-- Floating point (R279–R283). -/
def readFp (c : CoreId) (w : Word) : Option Instr :=
  let d := wG w 21
  let a := wG w 16
  let b := wG w 11
  let x := wB w 7
  let rm := rmField (wN w 10 8)
  match wN w 6 0 with
  | 0 => rm.map (fun r => .fadd c d a b r x)
  | 1 => rm.map (fun r => .fsub c d a b r x)
  | 2 => rm.map (fun r => .fmul c d a b r x)
  | 3 => rm.map (fun r => .fdiv c d a b r x)
  | 4 => rm.map (fun r => .fsqrt c d a r x)
  | 5 => some (.frem c d a b x)
  | 6 => some (.fmin c d a b x)
  | 7 => some (.fmax c d a b x)
  | 8 => some (.fminnum c d a b x)
  | 9 => some (.fmaxnum c d a b x)
  | 10 => rm.map (fun r => .frint c d a r x)
  | 11 => rm.map (fun r => .frintx c d a r x)
  | 12 => some (.fnextup c d a x)
  | 13 => some (.fnextdn c d a x)
  | 14 => rm.map (fun r => .fscaleb c d a b r x)
  | 15 => some (.flogb c d a x)
  | 16 => some (.fneg c d a x)
  | 17 => some (.fabs c d a x)
  | 18 => some (.fsgnj c d a b x)
  | 19 => some (.fclass c d a x)
  | 20 => some (.fcmp c a b x)
  | 21 => some (.fcmpe c a b x)
  | 22 => some (.ftot c d a b x)
  | 23 => some (.ftotm c d a b x)
  | 24 => rm.map (fun r => .fcvtFf c d a r x)
  | 25 => rm.map (fun r => .fcvtIf c d a r x (wB w 13) (wB w 12) (wB w 11))
  | 26 => rm.map (fun r => .fcvtFi c d a r x (wB w 12) (wB w 11))
  | _ => none

/-- Fused multiply-add (R282). -/
def readFused (c : CoreId) (w : Word) : Option Instr :=
  let d := wG w 21
  let a := wG w 16
  let b := wG w 11
  let e := wG w 6
  let x := wB w 5
  (rmField (wN w 4 2)).map (fun r => match wN w 1 0 with
    | 0 => .fusedMulAdd c d a b e r x
    | 1 => .fusedMulSub c d a b e r x
    | 2 => .fusedNegMulAdd c d a b e r x
    | _ => .fusedNegMulSub c d a b e r x)

/-- Short-vector q instructions (R284). -/
def readQ (c : CoreId) (w : Word) : Option Instr :=
  let d := wG w 21
  let a := wG w 16
  let b := wG w 11
  let x := wB w 10
  let l := wR w 6
  match wN w 5 0 with
  | 0 => some (.qadd c d a b x l)
  | 1 => some (.qsub c d a b x l)
  | 2 => some (.qmul c d a b x l)
  | 3 => some (.qfma c d a b x l)
  | 4 => some (.qmin c d a b x l)
  | 5 => some (.qmax c d a b x l)
  | 6 => some (.qand c d a b x l)
  | 7 => some (.qor c d a b x l)
  | 8 => some (.qxor c d a b x l)
  | 9 => some (.qcmul c d a b x l)
  | 10 => some (.qcmac c d a b x l)
  | 11 => some (.qconj c d a x l)
  | 12 => some (.qcmpeq c d a b x l)
  | 13 => some (.qcmplt c d a b x l)
  | 14 => some (.qcmple c d a b x l)
  | 15 => some (.qcmpun c d a b x l)
  | 16 => some (.qdup c d a x l)
  | 17 => some (.qswap c d a x l)
  | _ => none

/-- Scalar instructions below major 20 and from 21 to 25 (R264 and the tables of each group). DESIGN CHOICE (log entry 114): `wait.q`
and `qsync` on a Keep core, which has no engines, are illegal, though R263 does not list them. -/
def readScalar (c : CoreId) (w : Word) : Option Instr :=
  let d := wG w 21
  let a := wG w 16
  let imm : Half := w.extractLsb' 0 16
  match wN w 31 26 with
  | 1 => readAlu c w
  | 2 => some (.addi c d a imm)
  | 3 => some (.addiF c d a imm)
  | 4 => some (.andi c d a imm)
  | 5 => some (.ori c d a imm)
  | 6 => some (.xori c d a imm)
  | 7 => match wN w 15 14 with
    | 0 => some (.slli c d a (w.extractLsb' 0 6))
    | 1 => some (.srli c d a (w.extractLsb' 0 6))
    | 2 => some (.srai c d a (w.extractLsb' 0 6))
    | _ => none
  | 8 => some (if wB w 20 then .kins c d imm (w.extractLsb' 18 2) else .kset c d imm (w.extractLsb' 18 2))
  | 9 => some (.ld c d (wR w 18) (wG w 13) (wR w 10) (w.extractLsb' 0 10) .none)
  | 10 => some (.st c d (wR w 18) (wG w 13) (wR w 10) (w.extractLsb' 0 10))
  | 11 => some (.fld c d (wR w 18) (wG w 13) (wR w 10) (w.extractLsb' 0 10) .none)
  | 12 => some (.fst c d (wR w 18) (wG w 13) (wR w 10) (w.extractLsb' 0 10))
  | 13 => some (.bCond c (w.extractLsb' 22 4) (w.extractLsb' 0 22))
  | 14 => some (.jal c (w.extractLsb' 0 26))
  | 15 => some (.j c (w.extractLsb' 0 26))
  | 16 => readFp c w
  | 17 => readFused c w
  | 18 => some (.jalr c d a)
  | 19 => match wN w 5 0 with
    | 0 => some (.mvGf c d a)
    | 1 => some (.mvFg c d a)
    | 2 => some (.mfcs c d (w.extractLsb' 11 5))
    | 3 => some (.mtcs c (w.extractLsb' 11 5) a)
    | _ => none
  | 20 => readQ c w
  | 21 =>
    let g := wG w 13
    let off : BitVec 13 := w.extractLsb' 0 13
    match wN w 25 23 with
    | 0 => some (.bset ⟨c, .none⟩ g off)
    | 1 => some (.bclr ⟨c, .none⟩ g off)
    | 2 => some (.btst c (wG w 18) g off)
    | 3 => some (.btas c (wG w 18) g off)
    | 4 => some (.bwait0 c g off (wG w 18))
    | 5 => some (.bwait1 c g off (wG w 18))
    | _ => none
  | 22 => some (if wB w 25 then .crw c (wG w 15) (wG w 20) (w.extractLsb' 0 15) else .crr c (wG w 20) (wG w 15) (w.extractLsb' 0 15))
  | 23 =>
    let m := wR w 18
    let g := wG w 13
    match wN w 25 24 with
    | 0 => some (.sld ⟨c, .none⟩ (wR w 21) m g (w.extractLsb' 0 8))
    | 1 => some (.sst c m g (w.extractLsb' 0 8) (wR w 21))
    | 2 => some (.srd c (wG w 8) (wR w 21) (w.extractLsb' 0 2))
    | _ => match wN w 7 0 with
      | 0 => some (.cwb c m g .none)
      | 1 => some (.cinv ⟨c, .none⟩ m g)
      | 2 => some (.cwbi ⟨c, .none⟩ m g)
      | 3 => some (.cpf c m g)
      | _ => none
  | 24 => match wN w 25 22, c with
    | 0, _ => some (.fence ⟨c, .none⟩)
    | 1, _ => some (.isync c)
    | 2, .tower t => some (.waitQ t (w.extractLsb' 0 6))
    | 3, .tower t => some (.qsync t (wR w 6) (w.extractLsb' 0 6))
    | _, _ => none
  | 25 => match wN w 25 22 with
    | 0 => some (.trap c imm)
    | 1 => some (.eret c)
    | 2 => some (.done ⟨c, .none⟩)
    | 3 => some (.halt c)
    | 4 => some (.nop c)
    | _ => none
  | _ => none

/-- `dm.*`, `sp.*`, `tu.*` and `t*` (R140, R166, R197, R223). -/
def readMatrix (t : TId) (w : Word) : Option Instr :=
  let d := wR w 19
  let s := wR w 16
  let a := wG w 11
  let p := Issue.push
  match wN w 31 26, wN w 25 22 with
  | 52, 0 => some (.dmCfg t p d s (w.extractLsb' 8 8) (w.extractLsb' 0 8))
  | 52, 1 => some (.dmFree t p d)
  | 52, 2 => some (.dmClr t p d)
  | 52, 3 => (fmtOfCode (wN w 10 7)).bind (fun f => (rmField (wN w 6 4)).map (fun r => .dmLd t p d s a f r (wB w 3) (wR w 0)))
  | 52, 4 => (fmtOfCode (wN w 10 7)).bind (fun f => (rmField (wN w 6 4)).map (fun r => .dmLdadd t p d s a f r (wB w 3) (wR w 0)))
  | 52, 5 => some (.dmDrain t p d s a (wG w 6))
  | 52, 6 => some (.dmXout t p d s a)
  | 52, 7 => some (.dmXadd t p d s a)
  | 53, 0 => some (.spCfg t p a)
  | 53, 1 => some (.spLds t p s (w.extractLsb' 9 7) (w.extractLsb' 2 7))
  | 53, 2 => some (.spLdsm t p s a (wG w 6))
  | 53, 3 => some (.spMm t p d s a (wB w 10))
  | 53, 4 => some (.spDrop t p)
  | 54, 0 => (fmtOfCode (wN w 10 7)).map (fun f => .tuPtr t p (w.extractLsb' 20 2) (wB w 19) s a f)
  | 54, 1 => some (.tuProg t p (wG w 16) (wR w 8) a)
  | 54, 2 => some (.tuRun t p (wG w 16) (w.extractLsb' 0 16) (wB w 21))
  | 55, 0 => some (.tld t p d s a (wG w 6))
  | 55, 1 => some (.tst t p s a d (wG w 6))
  | 55, 2 => some (.tmv t p d s a)
  | 55, 3 => some (.tmvVt t p d a (wB w 10))
  | 55, 4 => some (.tmvTv t p a d (wB w 10))
  | 55, 5 => some (.tclr t p d)
  | _, _ => none

/-- `v*` and `st.*` (R256, R369). -/
def readVector (t : TId) (w : Word) : Option Instr :=
  let d := wG w 21
  let a := wG w 16
  let p := Issue.push
  let o : VArith := ⟨d, a, wG w 11, wB w 10, wR w 7, wB w 6⟩
  let m : VMem := ⟨d, wR w 18, wG w 13, wG w 8, wB w 7, wR w 4⟩
  match wN w 31 26, wN w 5 0 with
  | 56, 0 => some (.vadd t p o)
  | 56, 1 => some (.vsub t p o)
  | 56, 2 => some (.vmul t p o)
  | 56, 3 => some (.vdiv t p o)
  | 56, 4 => some (.vsqrt t p o)
  | 56, 5 => some (.vmin t p o)
  | 56, 6 => some (.vmax t p o)
  | 56, 7 => some (.vfma t p o)
  | 56, 8 => some (.vfms t p o)
  | 56, 9 => some (.vabs t p o)
  | 56, 10 => some (.vneg t p o)
  | 56, 11 => some (.vand t p o)
  | 56, 12 => some (.vor t p o)
  | 56, 13 => some (.vxor t p o)
  | 56, 14 => some (.vsll t p o)
  | 56, 15 => some (.vsrl t p o)
  | 56, 16 => some (.vsra t p o)
  | 56, 17 => some (.vmv t p o)
  | 56, 18 => some (.vmerge t p o)
  | 56, 19 => some (.vcmul t p o)
  | 56, 20 => some (.vcmac t p o)
  | 56, 21 => some (.vconj t p o)
  | 56, 22 => some (.vredsum t p o)
  | 56, 23 => some (.vredmax t p o)
  | 56, 24 => some (.vredmin t p o)
  | 56, 32 => some (.vcmpeq t p o)
  | 56, 33 => some (.vcmplt t p o)
  | 56, 34 => some (.vcmple t p o)
  | 56, 35 => some (.vcmpun t p o)
  | 56, 40 => some (.vwmul t p o)
  | 56, 41 => some (.vwmacc t p o)
  | 56, 42 => some (.vwdot t p o)
  | 57, _ => match wN w 3 0 with
    | 0 => some (.vld t p m)
    | 1 => some (.vlds t p m)
    | 2 => some (.vldx t p m)
    | 4 => some (.vst t p m)
    | 5 => some (.vsts t p m)
    | 6 => some (.vstx t p m)
    | 8 => some (.vprobe t p .unit m)
    | 9 => some (.vprobe t p .strided m)
    | 10 => some (.vprobe t p .indexed m)
    | _ => none
  | 58, 0 => some (.vspan t d a (w.extractLsb' 12 4))
  | 58, 2 => some (.vmand t p (wR w 21) (wR w 16) (wR w 11))
  | 58, 3 => some (.vmor t p (wR w 21) (wR w 16) (wR w 11))
  | 58, 4 => some (.vmxor t p (wR w 21) (wR w 16) (wR w 11))
  | 58, 5 => some (.vmnot t p (wR w 21) (wR w 16))
  | 58, 6 => some (.vmpopc t d (wR w 16))
  | 58, 7 => some (.vmfirst t d (wR w 16))
  | 58, 8 => some (.vext t d a (wG w 11) (wB w 10))
  | 58, 9 => some (.vrel t p a)
  | 59, _ => (fmtOfCode (wN w 15 12)).bind (fun f => (rmField (wN w 11 9)).map (fun r => .vcvt t p d a f r (wB w 8) (wR w 5)))
  | 60, _ =>
    let k : BitVec 4 := w.extractLsb' 19 4
    match wN w 25 23 with
    | 0 => some (.stCopy t p k (wR w 16) (wG w 11) (wR w 8) (wG w 3))
    | 1 => some (.stShp t p k (wG w 11) (wG w 3))
    | 2 => some (.stFill t p k (wR w 16) (wG w 11) (wG w 3))
    | 3 => some (.stSig t p k (wG w 11) (w.extractLsb' 0 11))
    | _ => none
  | _, _ => none

/-- Encodings that the layout can spell but the instruction's rules make illegal, on the core that executes them (R141, R197,
R256, R263, R275, R277, R284, R285, R292). -/
def encodingOk (i : Instr) : Bool := match i with
  | .ld _ _ _ _ size _ _ => decide (size ≠ 7)
  | .st _ _ _ _ size _ => decide (size.toNat < 4)
  | .fld _ _ _ _ size _ _ | .fst _ _ _ _ size _ => decide (size = 2) || decide (size = 3) || decide (size = 7)
  | .mfcs _ _ n | .mtcs _ n _ => decide (n.toNat < 9)
  | .sld x n _ _ _ => decide (n ≠ 0) || isKeep x.core
  | .srd _ _ _ part => decide (part ≠ 3)
  | .qsync _ dst _ => decide (dst.toNat < 6)
  | .done x => !isKeep x.core
  | .halt c => isKeep c
  | .qadd _ _ _ _ w lf | .qsub _ _ _ _ w lf | .qcmpeq _ _ _ _ w lf | .qcmpun _ _ _ _ w lf | .qand _ _ _ _ w lf
  | .qor _ _ _ _ w lf | .qxor _ _ _ _ w lf => qWidthOk w lf
  | .qmul _ _ _ _ w lf | .qfma _ _ _ _ w lf | .qmin _ _ _ _ w lf | .qmax _ _ _ _ w lf | .qcmplt _ _ _ _ w lf
  | .qcmple _ _ _ _ w lf => qWidthOk w lf && !isCplx (qFmt lf)
  | .qcmul _ _ _ _ w lf | .qcmac _ _ _ _ w lf => qWidthOk w lf && isCplx (qFmt lf)
  | .qconj _ _ _ w lf => qWidthOk w lf && isCplx (qFmt lf)
  | .qdup _ _ _ w lf => qWidthOk w lf
  | .qswap _ _ _ w _ => w
  | .dmLd _ _ _ _ _ fmt _ _ _ | .dmLdadd _ _ _ _ _ fmt _ _ _ => decide (fmtCode fmt < 6)
  | .tuPtr _ _ p tile _ a fmt =>
    decide (fmtCode fmt < 10) && (!tile || decide (a = 0)) && (decide (p ≠ 3) || (!tile && decide (fmtCode fmt = 0)))
  | .tuProg _ _ slot _ _ => decide (slot ≠ 0)
  | .tuRun _ _ _ count _ => decide (count ≠ 0)
  | .vsqrt _ _ o => decide (o.b = 0)
  | .vcmpeq _ _ o | .vcmplt _ _ o | .vcmple _ _ o | .vcmpun _ _ o => decide (o.d.toNat < 8)
  | .vprobe _ _ _ o => decide (o.v.toNat < 8)
  | _ => true

/-- The instruction of a word on a core (R264, R265); none for an illegal word. Engine groups have no instruction on a Keep
core (R263). DESIGN CHOICE (log entry 112): operand fields that an instruction does not use, where the table of R256 does not mark
them zero (`vrel`, `vmnot`, `vmpopc`, `vmfirst`), must be zero too. -/
def decodeWord (c : CoreId) (w : Word) : Option Instr :=
  let r := if wN w 31 26 < 26 then readScalar c w
    else match c with
      | .keep _ => none
      | .tower t => if wN w 31 26 < 56 then readMatrix t w else readVector t w
  r.filter (fun i => decide (encode i = w) && encodingOk i)

end Sys2Proof.Machine
end

