-- ==== Sys2Proof/Machine/Sync.lean ====
section
/-! DEFINITION. Bit instructions, engine synchronisation, exceptions, interrupts, the interval timer, and values the
vector unit returns to the core (R229–R233, R257, R286–R300, R325–R336, R497, R498). -/

namespace Sys2Proof.Machine

/-- A word that the decoder finds to be no instruction of the core (R264, R265, R296); any other word is not illegal, and
executes as the command of its own. -/
def execIllegalInstruction (c : CoreId) (w : Word) (s : State) : Out :=
  onCore c s fun s => if (decodeWord c w).isSome then .next s else s.illegal c w

/-! Bit instructions (R286–R290). -/

/-- A core at `bwait` on a barrier phase bit stops waiting: filler ends (R498). -/
def State.endFill (s : State) (c : CoreId) : State := match c with
  | .tower t => if s.f (Reg.sprFillDuty t.toNat) = 0 then s else s.setF (Reg.sprFillDuty t.toNat) 0
  | .keep _ => s

/-- Replaces Z, keeping the other flags (R288). -/
def setZ (old : Dword) (z : Bool) : Dword := setBit old 3 z

/-- Value of the bit at a place. -/
def State.bitAt (s : State) (c : CoreId) (p : BitPlace) : Bool := match p with
  | .barrier n => s.barrierBit n
  | p => s.bitGet c p

/-- `bset` and `bclr` outside the local bits first publish the core's stores (R290). -/
def State.bitPublish (s : State) (c : CoreId) (p : BitPlace) (up : Upset) : Bool × State := match p with
  | .localBit _ => (true, s)
  | _ => s.flush c up

/-- `bset` and `bclr`, as the instruction of word `w` (R288, R428). DESIGN CHOICE (log entry 114): `bset` of a barrier bit by a Keep
raises a bit fault; the spec does not say what it does there. -/
def State.bitWrite (s : State) (c : CoreId) (w : Word) (a : GReg) (off : BitVec 13) (v : Bool) (up : Upset) : Out :=
  let adr := offsetOf ((s.core c).getG a) off.toNat
  let p := bitPlace c (s.core c) adr
  let arrival := match p with | .barrier _ => true | _ => false
  if p = .none ∨ (arrival = true ∧ (v = false ∨ isKeep c = true)) then s.bitFault c adr
  else match s.bitPublish c p up with
    | (false, s) => .next (if s.executes c then s.stall c .remote w else s)
    | (true, s) =>
      if !s.executes c then .next s
      else match p, c with
        | .barrier n, .tower t => match s.arrive t.toNat n with
          | none => s.bitFault c adr
          | some s => .next (if s.executes c then s.retire c (s.core c) else s)
        | p, _ =>
          let s := s.bitPut c p v
          .next (s.retire c (s.core c))

/-- `bset` (R288). -/
def execBset (x : CoreRun) (a : GReg) (off : BitVec 13) (s : State) : Out :=
  let w := encode (.bset x a off)
  onCoreAt x.core w s fun s => withRegs x.core x.up s fun s => s.bitWrite x.core w a off true x.up
/-- `bclr` (R288). -/
def execBclr (x : CoreRun) (a : GReg) (off : BitVec 13) (s : State) : Out :=
  let w := encode (.bclr x a off)
  onCoreAt x.core w s fun s => withRegs x.core x.up s fun s => s.bitWrite x.core w a off false x.up

/-- `btst`: Z is 1 if the bit is 0 (R288). -/
def execBtst (c : CoreId) (d a : GReg) (off : BitVec 13) (s : State) : Out :=
  onCore c s fun s =>
    let k := s.core c
    let adr := offsetOf (k.getG a) off.toNat
    let p := bitPlace c k adr
    if p = .none then s.bitFault c adr
    else
      let b := s.bitAt c p
      let k := k.setG d (BitVec.ofNat 64 (b2n b))
      .next (s.retire c { k with flags := setZ k.flags (!b) })

/-- `btas`: the old bit, then the bit is set (R288). -/
def execBtas (c : CoreId) (d a : GReg) (off : BitVec 13) (s : State) : Out :=
  onCore c s fun s =>
    let adr := offsetOf ((s.core c).getG a) off.toNat
    let p := bitPlace c (s.core c) adr
    let barrier := match p with | .barrier _ => true | _ => false
    if p = .none ∨ barrier = true then s.bitFault c adr
    else
      let b := s.bitGet c p
      let s := s.bitPut c p true
      let k := (s.core c).setG d (BitVec.ofNat 64 (b2n b))
      .next (s.retire c { k with flags := setZ k.flags (!b) })

/-- The Tower starts to wait at a barrier: DUTY takes the smaller of the measured Spire activity, which no rule states,
and the largest starting duty, 0 at the cap floor (R487, R497). -/
def State.startFillRamp (s : State) (t : Nat) : State :=
  let top := if s.fb Reg.pwrStatFloor then 0 else fld s.pwr.fill Reg.pwrFillStart.hi Reg.pwrFillStart.lo
  let (v, s) := s.free
  s.setF (Reg.sprFillDuty t) (min (v.toNat % 65) top)

/-- `bwait0` and `bwait1` (R289, R497, R498). -/
def State.bitWait (s : State) (c : CoreId) (a : GReg) (off : BitVec 13) (tm : GReg) (want : Bool) (w : Word) : Out :=
  let k := s.core c
  let adr := offsetOf (k.getG a) off.toNat
  let p := bitPlace c k adr
  let barrier := match p with | .barrier _ => true | _ => false
  if p = .none then s.bitFault c adr
  else if barrier = true ∧ isKeep c = true then s.illegal c w
  else if s.bitAt c p = want then
    let s := s.endFill c
    .next (s.retire c { k with flags := setZ k.flags true })
  else
    let waiting := match k.wait with | .bwait .. => true | _ => false
    let s := match p, c with
      | .barrier n, .tower t => if n < 0x200 ∧ waiting = false then s.startFillRamp t.toNat else s
      | _, _ => s
    .next (s.stall c (.bwait (decide (k.getG tm ≠ 0)) adr want) w)

/-- `bwait0` (R288, R289). -/
def execBwait0 (c : CoreId) (a : GReg) (off : BitVec 13) (tm : GReg) (s : State) : Out :=
  onCoreAt c (encode (.bwait0 c a off tm)) s fun s => s.bitWait c a off tm false (encode (.bwait0 c a off tm))
/-- `bwait1` (R288, R289). -/
def execBwait1 (c : CoreId) (a : GReg) (off : BitVec 13) (tm : GReg) (s : State) : Out :=
  onCoreAt c (encode (.bwait1 c a off tm)) s fun s => s.bitWait c a off tm true (encode (.bwait1 c a off tm))

/-- The timeout of a stalled `bwait` passes: it ends with Z = 0, or with Z = 1 where the bit holds the awaited value by then
(R289). An engine-origin exception that is due ends the wait instead (R297). -/
def execBwaitTimeout (c : CoreId) (s : State) : Out :=
  onReady c s fun s =>
    let k := s.core c
    if k.engDue then .next s else
    match k.wait with
    | .bwait true a want =>
      let z := decide (s.bitAt c (bitPlace c k a) = want)
      let s := s.endFill c
      .next (s.retire c { k with flags := setZ k.flags z })
    | _ => .next s

/-- The filler ramp of a waiting Tower falls by one (R497). -/
def execFillRampStep (t : TId) (s : State) : Out :=
  let n := t.toNat
  let d := s.f (Reg.sprFillDuty n)
  .next (if d = 0 then s else s.setF (Reg.sprFillDuty n) (d - 1))

/-! Engine synchronisation and the end of a program (R292, R293, R300). -/

/-- `wait.q` (R292). -/
def execWaitQ (t : TId) (mask : BitVec 6) (s : State) : Out :=
  let c := CoreId.tower t
  let w := encode (.waitQ t mask)
  onCoreAt c w s fun s =>
    let s := s.enginesGo t.toNat
    .next (if !s.executes c then s
      else if (s.tw t.toNat).idle mask.toNat then s.retire c (s.core c)
      else s.stall c .waitQ w)

/-- The engine of a code (R292). -/
def engOf (n : Nat) : Eng := match n with
  | 0 => .vec | 1 => .spr | 2 => .dom | 3 => .tur | 4 => .tile | _ => .str

/-- `qsync` pushes a marker (R292). -/
def execQsync (t : TId) (dst : R3) (mask : BitVec 6) (s : State) : Out :=
  let c := CoreId.tower t
  let w := encode (.qsync t dst mask)
  onCoreAt c w s fun s =>
    let e := engOf dst.toNat
    if 6 ≤ dst.toNat then s.illegal c w
    else if 32 ≤ ((s.tw t.toNat).queue e).length then .next (s.stall c .queueFull w)
    else
      let s := s.modTw t.toNat (fun w => w.pushEntry e (.marker mask.toNat) [] [] 0 0 0 false)
      .next (s.retire c (s.core c))

/-- `trap` (R296, R300). -/
def execTrap (c : CoreId) (imm : Half) (s : State) : Out :=
  onCore c s fun s => s.except c 5 0 (imm.setWidth 64) ((s.core c).pc + 4)

/-- An entry captures its segment registers afresh (R299). -/
def QEntry.recapture (k : Core) (x : QEntry) : QEntry :=
  { x with segs := x.segs.map (fun e => (e.1, Tab.get {} k.segs e.1)) }
def recaptureHead (k : Core) : List QEntry → List QEntry
  | [] => []
  | x :: xs => x.recapture k :: xs

/-- A slot with a segment fault whose exception has been taken: its descriptors that failed capture their segments afresh
and are checked again, and one at the head restarts from its first byte (R299, R342). -/
def Slot.resumeSeg (k : Core) (l : Slot) : Slot :=
  let again := fun (x : QEntry) => if x.check = .seg then { x.recapture k with check := .due } else x
  let restart := (l.fifo.head?.map (·.check)) = some .seg
  { l with fifo := l.fifo.map again, stopped := if l.stopped = 3 then 0 else l.stopped, row := if restart then 0 else l.row,
           byte := if restart then 0 else l.byte, ahead := none, aheadStop := false }

/-- A stopped `tu.run` captures the segments of its pointers afresh (R299). -/
def Tower.recaptureRun (w : Tower) : Tower := match w.qTur with
  | x :: _ => match x.kind with
    | .insn (.tuRun _ _ slot _ hist) => w.recapturePtrs (w.runPtrs slot.toNat hist)
    | _ => w
  | [] => w

/-- The exception of an engine's stop has been taken (R297). -/
def Core.segTaken (k : Core) (engine : Nat) : Bool := !k.engPend.any (fun f => decide (f.engine = engine))

/-- Engines and slots stopped on a segment fault whose exception has been taken go on with their segments captured
afresh (R299). -/
def Tower.resumeSeg (w : Tower) : Tower :=
  let go := fun (e : Eng) (w : Tower) => decide (w.stop e = .segFault) && w.core.segTaken (e.num + 1)
  let w := if go .tur w then w.recaptureRun else w
  let w := overList allEngines (fun e (w : Tower) =>
    if go e w then (w.setStop e .running).setQueue e (recaptureHead w.core (w.queue e)) else w) w
  { w with slots := w.slots.map (fun e =>
      if w.core.engPend.any (fun f => decide (f.engine = 6) && decide (f.slot = e.1)) then e
      else (e.1, e.2.resumeSeg w.core)) }

/-- The vector unit and the tile engine clear STOPPED as they resume (R217, R250). -/
def State.resumeSegs (s : State) (t : Nat) : State :=
  let w := s.tw t
  let s := if w.sVec = .segFault ∧ w.core.segTaken 1 = true then s.setF (Reg.vecStatStopped t) 0 else s
  let s := if w.sTile = .segFault ∧ w.core.segTaken 5 = true then s.setF (Reg.twrTstatStopped t) 0 else s
  s.modTw t Tower.resumeSeg

/-- `eret` (R299, R330). -/
def execEret (c : CoreId) (s : State) : Out :=
  onCore c s fun s =>
    let k := s.core c
    if !k.handlerRuns then s.illegal c (encode (.eret c))
    else match c, k.errSrc with
      | .tower t, some _ => .next (s.programError t.toNat)
      | _, _ =>
        let s := s.retireTo c { k with estat := setBit k.estat 0 false, loop := .idle } k.epc
        .next (match c with | .tower t => s.resumeSegs t.toNat | .keep _ => s)

/-! The end of a program in a handler: engines stopped on a segment fault do not go on (R299). -/

/-- Every instruction of the Tower is complete (R293), in a handler but for those that no engine can complete before the
handler returns (R299). -/
def Tower.doneIdle (w : Tower) : Bool :=
  if w.core.handlerRuns then
    let l := w.stuck w.segStops 6
    allEngines.all (fun e =>
      (l.contains e || decide (w.queue e = [])) && (decide (e ≠ .str) || w.slots.all (fun x => x.2.stuck || decide (x.2.fifo = []))))
  else w.idle 63

/-- `done` (R293, R319, R330): illegal on a Keep core. -/
def execDone (x : CoreRun) (s : State) : Out :=
  let c := x.core
  let w := encode (.done x)
  onCoreAt c w s fun s => withRegs c x.up s fun s => match c with
    | .keep _ => s.illegal c w
    | .tower t =>
      if (s.core c).errSrc.isSome then .next (s.programError t.toNat)
      else
        let (out, s) := s.flush c x.up
        let s := s.enginesGo t.toNat
        .next (if !s.executes c then s
          else if !out || !(s.tw t.toNat).doneIdle then s.stall c .waitQ w
          else
            let s := s.countInst c
            let s := s.modTw t.toNat (fun w => { w with run := .done, core := { w.core with wait := .none } })
            let s := { s with roll := { s.roll with doneAt := Tab.set s.roll.doneAt t.toNat (s.f Reg.rollPhasePhase) } }
            match s.stepOf t.toNat with
            | some (k, st) =>
              if (s.tw t.toNat).rank = 0 then
                { s with steps := Tab.set s.steps k { st with result := fld ((s.core c).getG 1) 31 0 } }
              else s
            | none => s)

/-- `halt`: a Keep core stops until its wake event; illegal on a Tower core (R300). -/
def execHalt (c : CoreId) (s : State) : Out :=
  onCore c s fun s => match c with
    | .tower _ => s.illegal c (encode (.halt c))
    | .keep _ =>
      let s := s.retire c (s.core c)
      .next (s.stall c .halted 0)

/-- `nop` (R300). -/
def execNop (c : CoreId) (s : State) : Out := onCore c s fun s => .next (s.retire c (s.core c))

/-! Exceptions of engine origin and interrupts (R297, R298, R325–R330). -/

/-- The exception due first: engines in the order of their numbers (R297). -/
def firstDue (l : List EngFault) : Option EngFault := (sortBy (fun f : EngFault => f.engine) l).head?


/-- A core enters an engine-origin exception (R297, R298). -/
def execExceptionEntry (t : TId) (s : State) : Out :=
  let c := CoreId.tower t
  onReady c s fun s =>
    let k := s.core c
    match firstDue k.engPend with
    | none => .next s
    | some f =>
      if k.handlerRuns || !s.yieldsAt c then .next s
      else if !k.vectorsOn then .next (s.programError t.toNat)
      else
        let s := s.endFill c
        .next (s.setCore c ({ k with engPend := removeOne f k.engPend }.enter f.engine f.sub 2 (BitVec.ofNat 64 f.off) k.pc))

/-- Pending sources of a Tower, as `TWR_IPEND` reads (R325). -/
def State.pendingSrc (s : State) (t : Nat) : Nat := fld (s.rd (Reg.twrIpend t)) 3 0 + s.levels t * 2 ^ 16

/-- Priority of a source (R326). -/
def State.srcPrio (s : State) (t src : Nat) : Nat :=
  if src < 16 then fld (s.rd (Reg.twrIprio0 t)) (4 * src + 2) (4 * src)
  else fld (s.rd (Reg.twrIprio1 t)) (4 * (src - 16) + 2) (4 * (src - 16))

/-- The interrupt taken: the highest priority among the eligible, then the lowest number (R326). -/
def State.bestSrc (s : State) (t : Nat) : Option Nat :=
  (sortBy (fun n => 7 - s.srcPrio t n)
    ((range 0 23).filter (fun n => (s.pendingSrc t).testBit n && s.srcEligible t n))).head?

/-- The core stands where an interrupt is taken: at an instruction boundary or in a wait that it ends (R327); `fence`,
`isync`, and a wait for engines that go on, are waited for to their end (log entry 49). -/
def State.interruptible (s : State) (c : CoreId) : Bool :=
  s.yieldsAt c || decide ((s.core c).wait = .l1Miss) || decide ((s.core c).wait = .storeBuffer)

/-- An interrupt is taken (R325–R329). -/
def execInterruptEntry (t : TId) (s : State) : Out :=
  let c := CoreId.tower t
  onReady c s fun s =>
    let k := s.core c
    if k.handlerRuns || !s.interruptible c || (decide (k.engPend ≠ []) && s.yieldsAt c) then .next s
    else match s.bestSrc t.toNat with
      | none => .next s
      | some n =>
        let s := s.endFill c
        let err := if n ∈ [16, 17, 18, 20, 21, 22] then some n else none
        .next (s.setCore c ({ k with errSrc := err }.enter 0 0 (0x20 + n) 0 k.pc))

/-! The interval timer (R331–R336). -/

/-- The watchdog's count reaches 0 (R332). -/
def execWatchdogExpiry (t : TId) (s : State) : Out :=
  let n := t.toNat
  .next (if (s.tw n).armed = false ∨ (s.tw n).run ≠ .running ∨ (s.tw n).held = true then s
    else
      let s := (s.setF (Reg.twrStatWdogExp n) 1).latch n 0
      let again := if s.fb (Reg.twrSmpCtrlEn n) then s.f (Reg.twrSmpCtrlInterval n) else 0
      let s := s.modTw n (fun w => { w with armed := false, timer := again })
      if s.srcEligible n 0 then s else s.programError n)

/-- What a sample record says of a stall (R335). -/
def Wait.code (w : Wait) : Nat := match w with
  | .none => 0 | .l1Miss => 1 | .queueFull => 2 | .waitQ => 3 | .bwait .. => 4 | .remote => 5 | .storeBuffer => 6
  | .translation | .engineOrdered | .engineResult _ | .halted | .uncached | .maint | .fence => 7

/-- A sample record (R335). -/
def State.sampleBytes (s : State) (t : Nat) (atRoll : Bool) : List Byte :=
  let w := s.tw t
  let busy := bitsOf 6 (fun i => decide (w.queue (engOf i) ≠ []))
  leBytes 8 s.now ++ leBytes 4 w.core.pc.toNat ++ leBytes 2 (s.f Reg.rollPhasePhase) ++ leBytes 1 busy
    ++ leBytes 1 (b2n w.core.handlerRuns + 2 * b2n atRoll + 4 * w.core.wait.code)

/-- The sampler writes a record (R333). -/
def State.sampleWrite (s : State) (t : Nat) (atRoll : Bool) (resp : Resp) : State :=
  let prod := s.f (Reg.twrSmpProdProd t)
  let size := 2 ^ s.f (Reg.twrSmpCtrlLog2n t)
  if (prod + 2 ^ 32 - s.f (Reg.twrSmpConsCons t)) % 2 ^ 32 = size then s.satF (Reg.twrSmpProdDrop t) 1
  else
    let a := fld (s.rd (Reg.twrSmpBase t)) 44 4 * 16 + prod % size * 16
    let (e, s) := s.keepWrite a (s.sampleBytes t atRoll) resp
    if e then ((s.setF (Reg.twrSmpCtrlEn t) 0).setF (Reg.twrStatSmpErr t) 1).satF (Reg.twrSmpProdDrop t) 1
    else s.incF (Reg.twrSmpProdProd t) 1

/-- The sampler's interval ends (R331, R333). -/
def execSampleRecord (t : TId) (resp : Resp) (s : State) : Out :=
  let n := t.toNat
  .next (if s.timerOwner n ≠ 2 ∨ (s.tw n).run ≠ .running ∨ (s.tw n).held = true then s
    else (s.sampleWrite n false resp).modTw n (fun w => { w with timer := s.f (Reg.twrSmpCtrlInterval n) }))

/-- A write to `TWR_WDOG` arms, reloads or disarms the watchdog (R332, R334). -/
def State.wdogWrite (s : State) (t : Nat) (v : Dword) : State :=
  let s := s.setF (Reg.twrWdogInterval t) (fld v 31 0)
  let smp := s.fb (Reg.twrSmpCtrlEn t)
  if fld v 31 0 ≠ 0 then
    let s := s.modTw t (fun w => { w with armed := true, timer := fld v 31 0 })
    if smp then s.degrade t else s
  else if (s.tw t).armed then
    s.modTw t (fun w => { w with armed := false, timer := if smp then s.f (Reg.twrSmpCtrlInterval t) else 0 })
  else s

/-- `TWR_WDOG` (R332). -/
def execTwrWdog (t : TId) (v : Dword) (s : State) : Out := .next (s.wdogWrite t.toNat v)

/-- A write to `TWR_SMP_CTRL` (R333, R334, R336). -/
def State.smpCtrlWrite (s : State) (t : Nat) (v : Dword) : State :=
  let s := if 64 ≤ fld v 63 32 then s.setF (Reg.twrSmpCtrlInterval t) (fld v 63 32) else s
  let s := if 6 ≤ fld v 5 1 ∧ fld v 5 1 ≤ 16 then s.setF (Reg.twrSmpCtrlLog2n t) (fld v 5 1) else s
  if bit v 0 = false then s.setF (Reg.twrSmpCtrlEn t) 0
  else if s.fb (Reg.twrSmpCtrlEn t) then s
  else
    let a := fld (s.rd (Reg.twrSmpBase t)) 44 4 * 16
    if s.inDevOrWin a (16 * 2 ^ s.f (Reg.twrSmpCtrlLog2n t)) = false then s.setF (Reg.twrStatSmpErr t) 1
    else
      let s := ((s.setF (Reg.twrSmpCtrlEn t) 1).wr (Reg.twrSmpProd t) 0).wr (Reg.twrSmpCons t) 0
      if (s.tw t).armed then s.degrade t
      else s.modTw t (fun w => { w with timer := s.f (Reg.twrSmpCtrlInterval t) })

/-- `TWR_SMP_CTRL` (R333). -/
def execTwrSmpCtrl (t : TId) (v : Dword) (s : State) : Out := .next (s.smpCtrlWrite t.toNat v)

/-- A write to `TWR_DOORBELL` latches source 1 (R325, R336). -/
def State.doorbell (s : State) (t : Nat) (v : Dword) : State := (s.wr (Reg.twrDoorbell t) v).latch t 1

/-- `TWR_DOORBELL` (R325). -/
def execTwrDoorbell (t : TId) (v : Dword) (s : State) : Out := .next (s.doorbell t.toNat v)

/-! Tile extents (R209–R211). -/

/-- An extent that R209 allows takes effect. -/
def State.tcfgPut (s : State) (t n : Nat) (v : Dword) : State :=
  let rows := fld v (Reg.twrTcfgRows t n).hi (Reg.twrTcfgRows t n).lo
  let rb := fld v (Reg.twrTcfgRbytes t n).hi (Reg.twrTcfgRbytes t n).lo
  if 1 ≤ rows ∧ rows ≤ 128 ∧ 8 ≤ rb ∧ rb ≤ 256 ∧ rb % 8 = 0 then
    (s.setF (Reg.twrTcfgRows t n) rows).setF (Reg.twrTcfgRbytes t n) rb
  else s

/-- A Tower program's write waits for the tile, Spire, Dome and Turret queues; while a tile instruction is stopped it is
dropped (R210, R211). -/
def State.tcfgByTower (s : State) (t : TId) (at' : Word) (n : Nat) (v : Dword) : Out :=
  let c := CoreId.tower t
  let T := t.toNat
  if s.fb (Reg.twrTstatStopped T) then
    let s := s.setF (Reg.twrTstatCfgDrop T) 1
    .next (s.retire c (s.core c))
  else
    let s := s.enginesGo T
    .next (if !s.executes c then s
      else if (s.tw T).idle 0b011110 then
        let s := s.tcfgPut T n v
        s.retire c (s.core c)
      else s.stall c (.engineResult 0b011110) at')

/-- `TWR_TCFGn` (R209–R211). -/
def execTwrTcfgn (byHost : Bool) (t : TId) (n : R3) (v : Dword) (s : State) : Out :=
  if byHost then .next (if (s.tw t.toNat).step = none then s.tcfgPut t.toNat n.toNat v else s)
  else onCoreAt (.tower t) 0 s fun s => s.tcfgByTower t 0 n.toNat v

/-! Values from the vector unit (R229–R233, R257). -/

/-- `vspan`, executed at decode (R229, R230). -/
def execVspan (t : TId) (d a : GReg) (fmt : BitVec 4) (s : State) : Out :=
  let c := CoreId.tower t
  onCore c s fun s =>
    let k := s.core c
    match fmtOfCode fmt.toNat with
    | none =>
      let s := s.wr (Reg.vecSpan t.toNat) (setBit (setFld (s.rd (Reg.vecSpan t.toNat)) 15 0 0) 63 true)
      .next (s.retire c (k.setG d 0))
    | some f =>
      let vl := min (k.getG a).toNat (16384 * 8 / fmtBits f)
      let v := setBit (setFld (setFld (s.rd (Reg.vecSpan t.toNat)) 15 0 vl) 35 32 fmt.toNat) 63 false
      .next ((s.wr (Reg.vecSpan t.toNat) v).retire c (k.setG d (BitVec.ofNat 64 vl)))

/-- The core waits until the vector unit has executed every earlier `v*` instruction, then `f` reads the unit (R257): a unit
that an error has stopped executes none (R254). FMT_BAD is a vector error (R230). -/
def fromVector (t : TId) (w : Word) (s : State) (f : State → Nat → Out) : Out :=
  let c := CoreId.tower t
  onCoreAt c w s fun s =>
    let s := s.enginesGo t.toNat
    if !s.executes c then .next s
    else if (s.tw t.toNat).qVec ≠ [] ∨ (s.tw t.toNat).sVec ≠ .running then .next (s.stall c (.engineResult 1) w)
    else
      let sp := s.rd (Reg.vecSpan t.toNat)
      if bit sp 63 then
        let s := (s.vecError t.toNat 1).2
        .next (if s.executes c then s.stall c (.engineResult 1) w else s)
      else f s (fld sp 15 0)

/-- `vmpopc` (R233). -/
def execVmpopc (t : TId) (d : GReg) (a : R3) (s : State) : Out :=
  fromVector t (encode (.vmpopc t d a)) s fun s vl =>
    let n := ((List.range vl).filter ((s.tw t.toNat).mbit a.toNat)).length
    let c := CoreId.tower t
    .next (s.retire c ((s.core c).setG d (BitVec.ofNat 64 n)))

/-- `vmfirst` (R233). -/
def execVmfirst (t : TId) (d : GReg) (a : R3) (s : State) : Out :=
  fromVector t (encode (.vmfirst t d a)) s fun s vl =>
    let c := CoreId.tower t
    let v : Dword := match (List.range vl).find? ((s.tw t.toNat).mbit a.toNat) with
      | some i => BitVec.ofNat 64 i
      | none => -1
    .next (s.retire c ((s.core c).setG d v))

/-- `vext` (R254, R256): of a 128-bit complex element the low 64 bits, its real part, DESIGN CHOICE (log entry 112), the spec does not
say; bits of the result above the element are open, but for a binary32 in an f register (R260; log
entry 38). -/
def execVext (t : TId) (d a b : GReg) (f : Bool) (s : State) : Out :=
  fromVector t (encode (.vext t d a b f)) s fun s vl =>
    let c := CoreId.tower t
    let n := t.toNat
    let i := ((s.core c).getG b).toNat
    if vl ≤ i then
      let s := (s.vecError n 6).2
      .next (if s.executes c then s.stall c (.engineResult 1) (encode (.vext t d a b f)) else s)
    else
      let fmt := (fmtOfCode (fld (s.rd (Reg.vecSpan n)) 35 32)).getD .b32
      let bits := fmtBits fmt
      let x := (((s.tw n).vElems a.toNat fmt (i + 1))[i]?).getD 0
      if 64 ≤ bits ∨ (f = true ∧ fmt = .b32) then
        let v := BitVec.ofNat 64 x
        .next (s.retire c (if f then (s.core c).setF d v else (s.core c).setG d v))
      else
        let (u, s) := s.free
        let v := BitVec.ofNat 64 (x + u.toNat / 2 ^ bits * 2 ^ bits)
        .next (s.retire c (if f then (s.core c).setF d v else (s.core c).setG d v))

end Sys2Proof.Machine
end

