-- ==== Sys2Proof/Machine/Power.lean ====
section
/-! DEFINITION. What the power hardware does between boundaries, and the settings of filler and droop (R490, R491, R494,
R495, R504). -/

namespace Sys2Proof.Machine

def State.modPwr (s : State) (f : PwrSt → PwrSt) : State := { s with pwr := f s.pwr }

/-- Adds to a list without repeats. -/
def addOne (n : Nat) (l : List Nat) : List Nat := if l.contains n then l else l ++ [n]

/-- A die's Tower clocks are gated under R490 or R494. -/
def PwrSt.gated (p : PwrSt) (die : Nat) : Bool := p.alertGate || p.hot.any (fun r => decide (r / 16 = die))

/-- Gating begins: ROLL_PHASE is kept for the LATE flag (R65, R496). -/
def State.gateDie (s : State) (die : Nat) : State :=
  let g := if Tab.has s.pwr.gateFrom die then s.pwr.gateFrom else Tab.set s.pwr.gateFrom die (s.f Reg.rollPhasePhase)
  { s with pwr := { s.pwr with gateFrom := g } }.setF Reg.pwrStatGated 1

/-- A region reaches 103 °C: its die's Tower clocks are gated to one tc in two (R490). -/
def execThermalGuard (region : BitVec 5) (temp : Byte) (s : State) : Out :=
  .next (if temp.toNat < 103 then s
    else (s.modPwr (fun p => { p with hot := addOne region.toNat p.hot })).gateDie (region.toNat / 16))

/-- A junction sensor reads 105 °C for 1 µs: THERM_TRIP# is asserted and everything stops (R490). -/
def execThermTrip (temp : Byte) (s : State) : Out :=
  .next (if temp.toNat < 105 then s
    else
      let s := s.haltModule
      { s with boot := { s.boot with trip := true } })

/-- A device's temperature: above 95 °C its refresh doubles, and the limit above 100 °C is an input that a boundary takes
(R53, R491). -/
def execDeviceOverheat (dev : BitVec 5) (temp : Byte) (s : State) : Out :=
  let d := dev.toNat
  .next (if 24 ≤ d then s
    else s.modPwr (fun p =>
      { p with devTemp := Tab.set p.devTemp d temp.toNat,
               refresh := if 95 < temp.toNat then addOne d p.refresh else p.refresh.filter (· ≠ d),
               limitDue := if 100 < temp.toNat ∧ d ∉ p.limited ∧ Tab.has p.limitDue d = false then
                 Tab.set p.limitDue d s.stamp else p.limitDue }))

/-- PWR_ALERT# is asserted: every Tower clock is gated (R494). -/
def execPwrAlertAssert (s : State) : Out :=
  let s := s.setF Reg.pwrStatAlert 1
  let s := s.modPwr (fun p => { p with alertRoll := true, alertGate := true, alertGated := true })
  .next ((s.gateDie 0).gateDie 1)

/-- PWR_ALERT# is deasserted: the gating lasts until the next boundary (R494). -/
def execPwrAlertDeassert (s : State) : Out := .next (s.setF Reg.pwrStatAlert 0)

/-- A droop detector finds the supply more than THRESH below its set voltage: the region stretches (R495). -/
def execDroopStretch (region : BitVec 5) (mv : Byte) (s : State) : Out :=
  .next (if mv.toNat ≤ fld s.pwr.droopCfg 7 0 then s
    else s.modPwr (fun p => { p with
      droop := if Tab.has p.droop region.toNat then p.droop else Tab.set p.droop region.toNat (s.f Reg.rollPhasePhase, 0) }))

/-- Tc of a roll at an operating point, and at a region's (R38, R477). -/
def tcOf (op : Nat) : Nat := ([6656, 7680, 8448, 9472, 10240, 11264, 12288, 13312][op]?).getD 6656
def State.tcRoll (s : State) (r : Nat) : Nat := tcOf (s.f (Reg.pwrRegionOp r))

/-- Nominal voltage of an operating point in mV, and the supply voltage of a region there: nominal plus its margin (R477). -/
def nominalMv (op : Nat) : Nat := ([620, 650, 680, 710, 740, 770, 810, 850][op]?).getD 620
def State.supplyMv (s : State) (r op : Nat) : Nat := nominalMv op + Tab.get 0 s.pwr.margins (r * 8 + op)

/-- Stretched tc of a region count in the roll in which they pass (R495). -/
def State.countStretch (s : State) (r n : Nat) : State :=
  (s.modPwr (fun p => { p with stretched := Tab.set p.stretched r (Tab.get 0 p.stretched r + n) })).incF Reg.pwrDroopCntStretch n

/-- A stretch ends after at least 16 tc, each 1.25 times as long, and once every detector finds the supply within THRESH − 10 mV; its
tc that no boundary has counted are counted, and its rc for the LATE flag (R65, R495). -/
def execDroopStretchEnd (region : BitVec 5) (x : StretchEnd) (s : State) : Out :=
  let r := region.toNat
  .next (match Tab.find s.pwr.droop r with
    | none => s
    | some (start, past) =>
      if x.mv.any (fun m => decide (fld s.pwr.droopCfg 7 0 < m.toNat + 10)) then s
      else
        let n := max 16 x.tcs.toNat - past
        let stop := max (s.f Reg.rollPhasePhase) (start + n * 1280 / s.tcRoll r)
        let s := { s with roll := { s.roll with spans := s.roll.spans ++ [(r, start, stop)] } }
        (s.modPwr (fun p => { p with droop := Tab.del p.droop r })).countStretch r n)

/-- The roll ends in the stretches under way: their tc in it, of 1.25 times the length, are counted there (R495). -/
def State.closeStretches (s : State) : State :=
  overList s.pwr.droop (fun e s =>
    let n := (s.roll.len - e.2.1) * s.tcRoll e.1 / 1280
    (s.modPwr (fun p => { p with droop := Tab.set p.droop e.1 (e.2.1, e.2.2 + n) })).countStretch e.1 n) s

/-- A write to `PWR_FILL`: fields out of range stay, and the value takes effect at the first boundary that meets R53
(R504). -/
def State.pwrFillWrite (s : State) (v : Dword) : State :=
  let s := if 1 ≤ fld v 41 32 ∧ fld v 41 32 ≤ 1000 then s.setF Reg.pwrFillRampUs (fld v 41 32) else s
  let s := if fld v 6 0 ≤ 64 then s.setF Reg.pwrFillStart (fld v 6 0) else s
  s.modPwr (fun p => { p with fillDue := p.fillDue ++ [(s.stamp, s.rd Reg.pwrFill)] })

/-- `PWR_FILL` (R504). -/
def execPwrFill (v : Dword) (s : State) : Out := .next (s.pwrFillWrite v)

/-- A write to `PWR_DROOP_CFG` (R504). -/
def State.pwrDroopCfgWrite (s : State) (v : Dword) : State :=
  let s := s.setF Reg.pwrDroopCfgReport (fld v 47 32)
  let s := if 20 ≤ fld v 7 0 ∧ fld v 7 0 ≤ 80 then s.setF Reg.pwrDroopCfgThresh (fld v 7 0) else s
  s.modPwr (fun p => { p with droopDue := p.droopDue ++ [(s.stamp, s.rd Reg.pwrDroopCfg)] })

/-- `PWR_DROOP_CFG` (R504). -/
def execPwrDroopCfg (v : Dword) (s : State) : Out := .next (s.pwrDroopCfgWrite v)

end Sys2Proof.Machine
end

