-- ==== Sys2Proof/Machine/Rel.lean ====
section
/-! DEFINITION. Retirement, self-test, Keep faults, margins, the event log and flash records (R510–R523). -/

namespace Sys2Proof.Machine

/-- Towers of a region (R21). -/
def towersIn (r : Nat) : List Nat := (range 0 128).filter (fun t => decide (regionOf t = r))
/-- Regions adjacent to a region (R478). -/
def adjacent (a b : Nat) : Bool :=
  let row := fun r : Nat => r % 16 / 4
  let col := fun r : Nat => r % 4
  decide (a / 16 = b / 16) &&
    ((decide (row a = row b) && (decide (col a + 1 = col b) || decide (col b + 1 = col a)))
      || (decide (col a = col b) && (decide (row a + 1 = row b) || decide (row b + 1 = row a))))

def State.inService (s : State) (t : Nat) : Bool := decide ((s.tw t).run ≠ .retired)

/-! Retirement (R512–R515). -/

/-- A Tower that holds no step is retired: its store becomes a hole, requests to it that have not completed are answered
with ERROR 0x04, and the record is queued (R33, R426, R512, R515). -/
def State.retireTower (s : State) (t trigger : Nat) : State :=
  if s.inService t = false then s
  else
    let s := (s.abandonInbox t).modTw t (fun w => { w with run := .retired, step := none })
    let s := s.setF Reg.keepStatTowers (s.f Reg.keepStatTowers - 1)
    (s.flashPut (.retire (partTower t) trigger)).event 0x20 (partTower t) (leBytes 1 trigger)

/-- A device is retired: into the spare frames, whose event record waits for the end of the migration, or with its pages lost (R364,
R366, R513, R521). -/
def State.retireDevice (s : State) (d trigger : Nat) : State :=
  if s.dev.order.contains d = false ∨ s.dev.moved = some d ∨ s.dev.lost.contains d = true then s
  else
    let s := s.flashPut (.retire (partDevice d) trigger)
    if s.fb Reg.memStatSpare then
      let s := { s with dev := { s.dev with moved := some d, copied := some 0 } }
      let s := ((s.setF Reg.memStatSpare 0).setF Reg.memStatMigrating 1).setF (Reg.memDevState d) 1
      { s with dev := { s.dev with why := trigger, poor := false } }
    else
      let s := { s with dev := { s.dev with lost := addOne d s.dev.lost } }
      let s := (s.setF Reg.memStatDegraded 1).setF (Reg.memDevState d) 2
      s.event 0x20 (partDevice d) (leBytes 1 trigger ++ [1])

/-! The Tower self-test (R510, R511, R156). -/

/-- Maps failed rows onto working spares, spare 0 first; none where the Spire counts as failed (R156, R158, R511). DESIGN CHOICE
(log entry 50): the spec does not say which of two working spares takes the first row. -/
def mapSpares (v : Dword) : List Nat → Option Dword
  | [] => some v
  | r :: rs =>
    if !bit v 23 && !bit v 0 then mapSpares (setFld (setBit v 23 true) 22 16 r) rs
    else if !bit v 31 && !bit v 1 then mapSpares (setFld (setBit v 31 true) 30 24 r) rs
    else none

/-- The outcome of a self-test: `SPR_SPARE` after it, none where the Tower fails. Spares found faulty are marked, and a
row one of them served has failed again. -/
def spareAfter (v : Dword) (r : TestResult) : Option Dword :=
  let lost := (if r.s0Bad && bit v 23 then [fld v 22 16] else []) ++ (if r.s1Bad && bit v 31 then [fld v 30 24] else [])
  let v := if r.s0Bad then setBit (setBit v 0 true) 23 false else v
  let v := if r.s1Bad then setBit (setBit v 1 true) 31 false else v
  if r.failed then none else mapSpares v ((lost ++ r.rows.map (·.toNat)).foldl (fun l n => addOne n l) [])

/-- Spare rows newly mapped are recorded, with the trigger of R508: the self-test found them failed (R515). -/
def State.recordSpares (s : State) (t : Nat) (old new : Dword) : State :=
  if old = new then s
  else
    let s := s.flashPut (.spare t new 1)
    let ev := fun (n row : Nat) (s : State) => s.event 0x21 (partTower t) (leBytes 1 row ++ leBytes 1 n)
    let s := if bit new 23 && decide (fld old 23 16 ≠ fld new 23 16) then ev 0 (fld new 22 16) s else s
    if bit new 31 && decide (fld old 31 24 ≠ fld new 31 24) then ev 1 (fld new 30 24) s else s

/-- The test reads every store word through its ECC: a correctable error is written back corrected, an uncorrectable one stays, and both
count (R506, R508, R510). Words are numbered from the store's start. -/
def State.storeTest (s : State) (t : Nat) (r : TestResult) : State :=
  let words := r.uncorrected.filter (fun w => decide (w < 0xC0000))
  let s := if r.corrected = [] then s else s.towerCorrected t r.corrected.length
  overList words (fun w s =>
    let k := storeBase t / 8 + w
    { s with badWords := Tab.set s.badWords k .uncorrectable }.ueMet 128 (k * 8)) s

/-- A judgement's event record: R508's row, the condition within it, its count. -/
def State.judged (s : State) (part row cond count : Nat) : State :=
  s.event 0x11 part (leBytes 1 row ++ leBytes 1 cond ++ leBytes 4 count)

/-- The self-test of a Tower that took a machine check ends: it returns to service, or is retired (R510–R512). -/
def State.testEnds (s : State) (t : Nat) (r : TestResult) : State :=
  if (s.tw t).run ≠ .testing then s
  else
    let s := s.storeTest t r
    let old := s.rd (Reg.sprSpare t)
    match spareAfter old r with
    | none => (s.judged (partTower t) 1 1 1).retireTower t 1
    | some v =>
      let s := (s.wr (Reg.sprSpare t) v).recordSpares t old v
      (s.setF (Reg.twrStatMchk t) 0).modTw t (fun w => { w with run := .free, step := none })

/-- A self-test ends. Spares are mapped at a boundary only (R156), so what it found in a roll acts at the boundary after it; there and
at once where it ends at a boundary (log entry 117). -/
def execTowerSelfTest (t : TId) (r : TestResult) (s : State) : Out :=
  let n := t.toNat
  .next (if (s.tw n).run ≠ .testing ∨ s.rel.tests.any (fun e => decide (e.1 = n)) then s
    else if s.f Reg.rollPhasePhase = 0 then s.testEnds n r
    else { s with rel := { s.rel with tests := s.rel.tests ++ [(n, r)] } })

/-- The self-tests that ended in the roll just ended act (R156, R510). -/
def State.applyTests (s : State) : State :=
  let l := s.rel.tests
  overList l (fun e s => s.testEnds e.1 e.2) { s with rel := { s.rel with tests := [] } }

/-- Towers judged while they were assigned, and released since, are retired (R512). -/
def State.retireReleased (s : State) : State :=
  let l := s.rel.retireLater.filter (fun e => decide ((s.tw e.1).run = .free) || decide ((s.tw e.1).run = .testing))
  overList l (fun e s =>
    { s with rel := { s.rel with retireLater := Tab.del s.rel.retireLater e.1 } }.retireTower e.1 e.2) s

/-! Judgements at a boundary (R508, R513, R514). -/

/-- The first condition that a Tower meets in a roll, with its count; condition 1 is the self-test's, 3 the scrubs', 6 the margin's
(R508, R520). -/
def State.towerCond (s : State) (roll t : Nat) : Option (Nat × Nat) :=
  let n := fun k => s.countAt roll k t
  if 2 ≤ n .machineCheck then some (2, n .machineCheck)
  else if 256 < n .towerCe then some (4, n .towerCe)
  else if 16 < n .l1Perr then some (5, n .l1Perr)
  else none

/-- The first condition that a device meets in a roll other than its correction count, then that one. -/
def State.deviceCond (s : State) (roll d : Nat) : Option (Nat × Nat) :=
  let drift := ((range 0 4).map (fun c => s.countAt roll .drift (d * 4 + c))).foldl max 0
  let ue := s.ueCount roll d
  let ce := s.countAt roll .devCe d
  if 8 ≤ ue then some (2, ue)
  else if 3 ≤ drift then some (3, drift)
  else if Tab.has s.dev.silent d && decide (Tab.get 0 s.dev.silent d + 98 ≤ roll + 1) then some (4, roll + 1 - Tab.get 0 s.dev.silent d)
  else if 16384 < ce then some (1, ce)
  else none

/-- The conditions that held in the roll just ended are kept for the judgement, which a late boundary puts off (R54, R508). -/
def State.noteConditions (s : State) : State :=
  let roll := s.roll.passed - 1
  let s := overList (s.towers.map (·.1)) (fun t s => match s.towerCond roll t with
    | some (c, n) => if t < 128 then s.judge (partTower t) c n else s
    | none => s) s
  overList s.dev.order (fun d s => match s.deviceCond roll d with
    | some (c, n) => s.judge (partDevice d) c n
    | none => s) s

/-- A Tower judged permanent is retired, at its step's release if it holds one (R512). -/
def State.actTower (s : State) (t cond count : Nat) : State :=
  if s.inService t = false ∨ Tab.has s.rel.retireLater t = true then s
  else
    let s := s.judged (partTower t) 1 cond count
    if (s.tw t).run = .free then s.retireTower t cond
    else { s with rel := { s.rel with retireLater := Tab.set s.rel.retireLater t cond } }

/-- A device judged permanent (R513). -/
def State.actDevice (s : State) (d cond count : Nat) : State :=
  if s.dev.order.contains d = false ∨ s.dev.moved = some d ∨ s.dev.lost.contains d = true then s
  else if cond = 1 ∧ s.dev.moved.isSome then
    if s.rel.ceJudged.contains d then s
    else
      let s := s.judged (partDevice d) 3 1 count
      { s with rel := { s.rel with ceJudged := s.rel.ceJudged ++ [d] } }
  else (s.judged (partDevice d) 3 cond count).retireDevice d cond

/-- The judgements of a boundary: Towers, ports and lanes, devices in ascending position in L (R508, R513, R514). -/
def State.judgements (s : State) : State :=
  let queued := s.rel.judged
  let s := { s with rel := { s.rel with judged := [] } }
  let s := overList queued (fun e s =>
    let (part, cond, n) := e
    if part / 2 ^ 24 = 1 then s.actTower (part % 2 ^ 24) cond n
    else if part / 2 ^ 24 = 3 then (s.judged part 5 cond n).retirePort (part % 2 ^ 24) cond
    else if part / 2 ^ 24 = 4 then (s.judged part 4 cond n).retireLane (part % 2 ^ 24 / 8) (part % 8) cond
    else s) s
  overList s.dev.order (fun d s => match queued.find? (fun e => decide (e.1 = partDevice d)) with
    | some (_, c, n) => s.actDevice d c n
    | none => s) s

/-! Keep faults (R517). -/

/-- OVERRUN at 64 consecutive boundaries is a module fault (R517). -/
def execLeaderOverrunWatchdog (s : State) : Out := .next (if 64 ≤ s.roll.overruns then s.haltModule else s)

/-- A module fault stops every Tower and both Keeps (R517). -/
def execModuleFault (s : State) : Out := .next s.haltModule

/-! Margins (R518–R520). -/

def margin (s : State) (r op : Nat) : Nat := Tab.get 0 s.pwr.margins (r * 8 + op)
def round5 (n : Nat) : Nat := ceilDiv n 5 * 5

/-- The highest operating point whose margin is at most 60 mV, below the first that needs more (R518, R520). -/
def marginMaxOf (m : List Nat) : Nat := ((range 0 8).takeWhile (fun op => decide ((m[op]?).getD 0 ≤ 60))).length - 1

/-- The least multiple of 5 mV at which a monitor shows 20 ps, where it shows `slack` ps at `mv`, by its change of slack in fs per mV
(R519). -/
def needMv (slack : Int) (mv slope : Nat) : Nat :=
  let lack : Int := 20000 - 1000 * slack
  let base : Int := mv
  (5 * ((base * slope + lack + (5 * slope - 1)) / (5 * slope))).toNat

/-- The largest need among monitors. -/
def needAll (mv slope : Nat) (slacks : List Int) : Nat := (slacks.map (fun x => needMv x mv slope)).foldl max 0

/-- Slack in ps at another margin. -/
def slackAt (slack : Int) (slope : Nat) (mv mv' : Int) : Int := slack + (mv' - mv) * slope / 1000

/-- A region's plan for slacks of its Towers in service, each by operating point as (margin, slacks there), and their change by operating
point: the margins, and the Towers that alone need more than 60 mV at OP0, without which it is made (R518–R520). -/
def planRegion (towers : List (Nat × List (Nat × List Int))) (slope : List Nat) : List Nat × List Nat :=
  let need := fun (w : List (Nat × List Int)) (op : Nat) => match w[op]? with
    | some (mv, xs) => needAll mv ((slope[op]?).getD 1) xs
    | none => 0
  let bad := (towers.filter (fun e => decide (60 < need e.2 0))).map (·.1)
  let good := towers.filter (fun e => decide (need e.2 0 ≤ 60))
  ((range 0 8).map (fun op => (good.map (fun e => need e.2 op)).foldl max 0), bad)

/-- A region's plan as the flash records it: margins, baseline slacks and change of slack by operating point (R518, R519). -/
def State.putPlan' (s : State) (r : Nat) (base : List (List Int)) (slope : List Nat) : State :=
  s.modPwr (fun p => { p with
    base := overList (range 0 8) (fun op m => Tab.set m (r * 8 + op) ((base[op]?).getD [])) p.base,
    slope := overList (range 0 8) (fun op m => Tab.set m (r * 8 + op) ((slope[op]?).getD 0)) p.slope })

/-- Path monitors are read at the running operating point: their slacks in ps, `slack` less `short`, eight for each Tower of the region.
A region with a monitor below 14 ps, or more than 6 ps from its baseline, is planned again (R519, R520). What a monitor has moved at
this point it is taken to have moved at each: DESIGN CHOICE (log entry 118). -/
def execMonitorSample (region : BitVec 5) (slack short : List Nat) (s : State) : Out :=
  let r := region.toNat
  let op := s.f (Reg.pwrRegionOp r)
  let seen := fun (i : Nat) => (((slack[i]?).getD 20 : Nat) : Int) - (((short[i]?).getD 0 : Nat) : Int)
  let base := fun (o i : Nat) => ((Tab.get [] s.pwr.base (r * 8 + o))[i]?).getD 20
  let moved := fun (i : Nat) => seen i - base op i
  let ts := ((towersIn r).zip (range 0 4)).filter (fun e => s.inService e.1)
  let poor := ts.any (fun e => (range (8 * e.2) 8).any (fun i =>
    decide (seen i < 14) || decide (6 < moved i) || decide (moved i < -6)))
  .next (if poor = false then s
    else
      let old := (range 0 8).map (margin s r)
      let slope := (range 0 8).map (fun o => Tab.get 0 s.pwr.slope (r * 8 + o))
      let now := fun (o i : Nat) => base o i + moved i
      let (new, bad) := planRegion (ts.map (fun e => (e.1, (range 0 8).map (fun o => (margin s r o, (range (8 * e.2) 8).map (now o)))))) slope
      let s := overList bad (fun t s => s.judge (partTower t) 6 1) s
      let fresh := (range 0 8).map (fun o => (range 0 32).map (fun i =>
        slackAt (now o i) ((slope[o]?).getD 0) ((old[o]?).getD 0 : Nat) ((new[o]?).getD 0 : Nat)))
      let s := (s.putPlan' r fresh slope).modPwr (fun p => { p with replan := Tab.set p.replan r new })
      let s := s.flashPut (.margins r new fresh slope)
      s.event 0x30 (partRegion r) (old.flatMap (leBytes 1) ++ new.flatMap (leBytes 1) ++ leBytes 1 (marginMaxOf new)))

/-- Margins of a region come into force, and its ceiling with them (R518–R520). -/
def State.putMargins (s : State) (r : Nat) (new : List Nat) : State :=
  let put := fun (m : Tab Nat) => overList (range 0 8) (fun op m => Tab.set m (r * 8 + op) ((new[op]?).getD 0)) m
  (s.modPwr (fun p => { p with margins := put p.margins })).setF (Reg.pwrRegionMarginMax r) (marginMaxOf new)

/-- New margins take effect at the boundary (R519, R520). -/
def State.applyReplan (s : State) : State :=
  if s.pwr.replan = [] then s
  else (overList s.pwr.replan (fun e s => s.putMargins e.1 e.2) s).modPwr (fun p => { p with replan := [] })

/-! The event log and flash records (R521–R523). -/

/-- Records of a sector, the unit of erasure, and records that a pass over the region of 192 MiB holds: one sector of it is always
erased ahead (R521, R522). DESIGN CHOICE (log entry 119): the spec gives no sector size. -/
def logSector : Nat := 64
def logSize : Nat := 3145728 - logSector

/-- Programs one event record; a sector whose records a later pass has all overwritten is erased (R521, R522). -/
def Flash.logPut (f : Flash) (e : Nat × Nat × Nat × List Byte) : Flash :=
  let r := withCrc (leBytes 8 f.seq ++ leBytes 8 e.1 ++ leBytes 2 e.2.1 ++ leBytes 2 f.boots ++ leBytes 4 e.2.2.1
    ++ padTo 36 e.2.2.2)
  let erased := (f.seq + 1 - logSize) / logSector * logSector
  { f with log := (f.log ++ [(f.seq, r)]).dropWhile (fun e => decide (e.1 < erased)), seq := f.seq + 1 }

/-- Programs a record held in two copies (R523). -/
def Flash.put (f : Flash) (r : FlashRec) : Flash := match r with
  | .retire part trig => { f with retired := f.retired.filter (fun e => decide (e.1 ≠ part)) ++ [(part, trig)] }
  | .spare t v trig => { f with spares := Tab.set f.spares t (v, trig) }
  | .lanes p bad lane trig => { f with lanes := Tab.set f.lanes p bad, laneWhy := Tab.set f.laneWhy (p * 8 + lane) trig }
  | .relayout on => { f with relayout := on }
  | .unretire part all =>
    { f with
      retired := f.retired.filter (fun e => !(all || decide (e.1 = part))),
      spares := if all then [] else if part / 2 ^ 24 = 1 then Tab.del f.spares (part % 2 ^ 24) else f.spares,
      lanes := if all then [] else
        if part / 2 ^ 24 = 4 then
          let p := part % 2 ^ 24 / 8
          Tab.set f.lanes p (Tab.get 0 f.lanes p &&& (255 - 2 ^ (part % 8)))
        else f.lanes,
      laneWhy := if all then [] else if part / 2 ^ 24 = 4 then Tab.del f.laneWhy (part % 2 ^ 24) else f.laneWhy,
      relayout := f.relayout || (if all then f.retired.any (fun e => decide (e.1 / 2 ^ 24 = 2)) else decide (part / 2 ^ 24 = 2)) }
  | .config bs => { f with config := bs }
  | .boot a tr td => { f with active := a, trial := tr, tried := td }
  | .margins rg mv base slope =>
    { f with margins := overList (range 0 8) (fun op m => Tab.set m (rg * 8 + op) ((mv[op]?).getD 0)) f.margins,
             base := overList (range 0 8) (fun op m => Tab.set m (rg * 8 + op) ((base[op]?).getD [])) f.base,
             slope := overList (range 0 8) (fun op m => Tab.set m (rg * 8 + op) ((slope[op]?).getD 0)) f.slope }
  | .coeff d c => { f with coeffs := Tab.set f.coeffs d c }

/-- The interval of 64 rolls that ends with the roll just ended is closed: the DETAIL of its TELEMETRY record (R521, R522). -/
def State.closeTelemetry (s : State) : State :=
  if s.roll.passed < s.rel.teleFrom + 64 then s
  else
    let r := s.rel
    let opr := if r.teleOpSeen then r.teleOpHi * 16 + r.teleOpLo else 0
    let d := leBytes 4 r.teleEnergy ++ leBytes 1 r.teleTj ++ leBytes 1 opr ++ leBytes 1 r.teleReasons ++ leBytes 1 r.teleHeld
      ++ leBytes 4 r.teleTowerCe ++ leBytes 4 r.teleMemCe ++ leBytes 4 r.teleResent ++ leBytes 4 r.telePosted
    let rel : RelSt := { r with
      teleFrom := s.roll.passed, teleDone := r.teleDone ++ [d], teleEnergy := 0, teleTj := 0, teleOpHi := 0, teleOpLo := 7,
      teleOpSeen := false, teleReasons := 0, teleHeld := 0, teleTowerCe := 0, teleMemCe := 0, teleResent := 0, telePosted := 0 }
    { s with rel := rel }

/-! The Keep programs the flash while it runs: stopped Keeps program nothing (R517). -/

/-- The TELEMETRY record of the oldest interval that has ended is queued (R521, R522). -/
def execTelemetryRecord (s : State) : Out :=
  .next (match s.alive, s.rel.teleDone with
    | true, d :: ds => { s with rel := { s.rel with teleDone := ds } }.event 2 0 d
    | _, _ => s)

/-- The first waiting event record is programmed (R521, R522). -/
def execEventRecordProgram (s : State) : Out :=
  .next (match s.alive, s.flashq.events with
    | true, e :: es => { s with flash := s.flash.logPut e, flashq := { s.flashq with events := es } }
    | _, _ => s)

/-- The first waiting record is programmed (R523). -/
def execFlashRecordProgram (s : State) : Out :=
  .next (match s.alive, s.flashq.recs with
    | true, r :: rs => { s with flash := s.flash.put r, flashq := { s.flashq with recs := rs } }
    | _, _ => s)

/-- Every waiting record is programmed (R543: before a RESET command's module reset). -/
def State.programAll (s : State) : State :=
  { s with flash := s.flashq.events.foldl Flash.logPut (s.flashq.recs.foldl Flash.put s.flash), flashq := {} }

end Sys2Proof.Machine
end

