-- ==== Sys2Proof/Machine/Steps.lean ====
section
/-! DEFINITION. Steps: acceptance, completions, dispatch, preemption and restore (R53–R61, R301, R455–R475). -/

namespace Sys2Proof.Machine

def State.setChan (s : State) (n : Nat) (c : Channel) : State := { s with chans := Tab.set s.chans n c }
def State.modChan (s : State) (n : Nat) (f : Channel → Channel) : State := s.setChan n (f (s.chan n))
def State.setStep (s : State) (k : Nat) (st : StepSt) : State := { s with steps := Tab.set s.steps k st }
def State.modStep (s : State) (k : Nat) (f : StepSt → StepSt) : State := match Tab.find s.steps k with
  | some st => s.setStep k (f st)
  | none => s

/-! Fields of a descriptor (R461). -/

def StepSt.fieldAt (st : StepSt) (o n : Nat) : Nat := leAt st.desc o n
def StepSt.need (st : StepSt) : Nat := st.fieldAt 4 1 + 1
def StepSt.budget (st : StepSt) : Nat := st.fieldAt 5 1
def StepSt.hint (st : StepSt) : Nat := st.fieldAt 6 1
def StepSt.restart (st : StepSt) : Bool := decide (st.fieldAt 7 1 % 2 = 1)
def StepSt.place (st : StepSt) : Bool := decide (st.fieldAt 7 1 / 2 % 2 = 1)
def StepSt.mask (st : StepSt) : Nat := st.fieldAt 0x60 16
def StepSt.named (st : StepSt) : List Nat := (range 0 128).filter (fun t => st.mask.testBit t)
def segAt (bs : List Byte) (o : Nat) : Seg := Seg.ofBytes ((bs.drop o).take 16)

/-! Queries over steps. -/

/-- Accepted steps of a channel that have not posted, oldest first, as submission index and step (R464). -/
def State.stepsOf (s : State) (n : Nat) : List (Nat × StepSt) :=
  let c := s.chan n
  let l := (s.steps.filter (fun e => decide (e.1 / 65536 = n))).map (fun e => (e.1 % 65536, e.2))
  sortBy (fun e : Nat × StepSt => (e.1 + 65536 - c.sqCons) % 65536) l

/-- The head step of a channel. -/
def State.headOf (s : State) (n : Nat) : Option (Nat × StepSt) := (s.stepsOf n).head?

/-- Its Towers are held in the current roll (R487). -/
def State.stepHeld (s : State) (st : StepSt) : Bool := st.towers.any (fun t => (s.tw t).held)

/-- Every Tower has executed the step's end (R56). -/
def State.complete (s : State) (st : StepSt) : Bool :=
  decide (st.phase = .resident) && decide (st.towers ≠ []) && st.towers.all (fun t => decide ((s.tw t).run = .done))

/-! Checks of R462. -/

/-- Row 1 of the descriptor itself. -/
def State.descMalformed (s : State) (d : List Byte) : Bool :=
  let f := fun (o n : Nat) => leAt d o n
  let n := f 0x58 2 + f 0x5A 2
  decide (f 6 1 / 16 ≠ 0) || decide (f 7 1 / 4 ≠ 0) || decide (f 0x5C 4 ≠ 0) || decide (f 0x70 16 ≠ 0)
    || (decide (n = 0) && decide (f 0x50 8 ≠ 0)) || decide (f 0 4 % 4 ≠ 0)
    || (decide (n ≠ 0) && (decide (f 0x50 8 % 16 ≠ 0) || !s.inDevOrWin (f 0x50 8) (16 * n)))
    || s.segInvalid false (segAt d 0x30) || s.segInvalid false (segAt d 0x40) || !(segAt d 0x30).x

/-- Row 1 of the region list. -/
def regionsBad (rs : List (Nat × Nat)) : Bool :=
  rs.any (fun r => decide (2 ^ 48 ≤ r.1) || decide (r.2 = 0) || decide (2 ^ 48 < r.1 + r.2))

/-- Row 2; `save` is the number of contexts that the channel's save area holds, if it has one. -/
def rowTwo (st : StepSt) (save : Option Nat) : Bool :=
  decide (st.budget = 0) || decide (7 ≤ st.hint % 16) || decide (256 < st.fieldAt 0x58 2 + st.fieldAt 0x5A 2)
    || (st.place && decide (st.named.length ≠ st.need)) || (!st.place && decide (st.mask ≠ 0))
    || (match save with | some n => decide (n < st.need) | none => false)

/-- Row 3: the Towers in service do not serve it. -/
def State.rowThree (s : State) (st : StepSt) : Bool :=
  decide (s.f Reg.keepStatTowers < st.need) || (st.place && st.named.any (fun t => !s.inService t))

/-- Row 4: a restartable step's output meets an input. -/
def rowFour (st : StepSt) : Bool :=
  let nin := st.fieldAt 0x58 2
  st.restart && (st.regions.drop nin).any (fun o => (st.regions.take nin).any (fun i => overlaps o.1 o.2 i.1 i.2))

/-- Regions of a list: DVA and length. -/
def regionList (bs : List Byte) : Nat → List (Nat × Nat)
  | 0 => []
  | n + 1 => (leAt bs 0 8, leAt bs 8 8) :: regionList (bs.drop 16) n

/-! Channel faults and completions (R457, R460). -/

/-- The channel becomes FAULTED (R457). -/
def State.chanFault (s : State) (n : Nat) : State :=
  ((s.modChan n (fun c => { c with state := 3, abortPend := decide (c.state = 2) || c.abortPend })).setF Reg.keepIrqStatFaultIdx n).keepIrqSet 2

/-- The 32 bytes of a completion entry (R460). -/
def Completion.bytes (x : Completion) (post log now : Nat) : List Byte :=
  let phase := 1 - post / 2 ^ log % 2
  leBytes 2 x.status ++ leBytes 2 x.sqIndex ++ leBytes 1 (phase + 2 * b2n x.exact) ++ leBytes 1 x.reexec ++ leBytes 1 x.rolls
    ++ [0] ++ leBytes 8 x.tag ++ leBytes 8 now ++ leBytes 4 x.energy ++ leBytes 4 x.result

/-- Writes a completion entry and posts it, signalling where CQ_IRQ is set; an error response makes the channel FAULTED
and holds the completion (R457, R460). -/
def State.postEntry (s : State) (n : Nat) (x : Completion) (resp : Resp) : Bool × State :=
  let c := s.chan n
  let (e, s) := s.keepWrite (c.cqBase + 32 * (c.posted % 2 ^ c.cqLog)) (x.bytes c.posted c.cqLog s.now) resp
  if e then (false, s)
  else
    let s := s.setChan n { c with posted := (c.posted + 1) % 65536 }
    let s := { s with rel := { s.rel with telePosted := satAdd 32 s.rel.telePosted 1 } }
    if c.irq then
      let a := Reg.keepCqPend (n / 64)
      (true, (s.wr a (setBit (s.rd a) (n % 64) true)).keepIrqSet 1)
    else (true, s)

/-- The host die's answers to the writes of completion entries, by channel and count posted; any other is `ok`. -/
abbrev CqAnswers := List ((Nat × Nat) × Resp)

def CqAnswers.of (l : CqAnswers) (n posted : Nat) : Resp :=
  ((l.find? (fun e => decide (e.1 = (n, posted)))).map (·.2)).getD .ok

/-- A completion is posted, or held while the channel is FAULTED (R457). -/
def State.post (s : State) (n : Nat) (x : Completion) (ans : CqAnswers) : State :=
  if (s.chan n).state = 3 then s.modChan n (fun c => { c with heldC := c.heldC ++ [x] })
  else
    let (ok, s) := s.postEntry n x (ans.of n (s.chan n).posted)
    if ok then s else (s.chanFault n).modChan n (fun c => { c with heldC := c.heldC ++ [x] })

/-! The ends of a step's hold on its Towers. -/

/-- What a Tower has under way for a step of space `asid` is given up: plans, walks, buffered stores, lines (R468). Its requests
stay in the tracker until their answers come (R349). -/
def Tower.quit (w : Tower) (asid : Nat) : Tower :=
  { w with track := (orphans (fun _ => true) w.track).map (fun e => { e with gone := some (e.gone.getD asid) }), gates := [], plans := [], begun := [], starved := [], turn := 0, walks := [],
           core := { w.core with fill := none, victim := none, sbuf := [], l1 := [], plru := [] } }

/-- A Tower leaves its step: to its self-test after a machine check, else free; one judged meanwhile is retired at a boundary
(`retireReleased`). What it had outstanding is abandoned (R394, R468, R510, R512). -/
def State.releaseTower (s : State) (t : Nat) : State :=
  let asid := s.asidOf t
  let s := s.leaveFaults t
  s.modTw t (fun w => { w.quit asid with
    step := none, held := false, run := if s.fb (Reg.twrStatMchk t) then .testing else .free })

/-- The step leaves its Towers; arrivals of it in progress are not touched (R439). -/
def State.releaseStep (s : State) (k : Nat) : State := match Tab.find s.steps k with
  | some st =>
    let s := overList st.towers (fun t s => s.releaseTower t) s
    s.modStep k (fun st => { st with towers := [], reserved := [], saved := [] })
  | none => s

/-- Registers of a Tower's blocks that a Tower reset keeps: `SPR_SPARE` and the RW counters (R542). -/
def counterOffsets : List Nat :=
  [0x80, 0x88, 0x90, 0x98, 0x210, 0x218, 0x3010, 0x3020, 0x3028, 0x3030, 0x4020, 0x5020, 0x5028, 0x5040, 0x6030, 0x7020,
   0x7028, 0x7030, 0x8008, 0x8010, 0x8018]

/-- A Tower reset (R468, R542): its registers at their Reset values, and nothing of the struck execution left. MCHK stays
until the self-test passes (R510; log entry 57). -/
def State.resetTower (s : State) (t : Nat) : State :=
  if (s.tw t).run = .retired then s
  else
    let mchk := s.f (Reg.twrStatMchk t)
    let s := { s with regs := s.regs.filter (fun e =>
      !(decide (towerBase t ≤ e.1) && decide (e.1 < towerBase t + 0x100000)) || counterOffsets.contains (e.1 - towerBase t)) }
    let s := if mchk = 0 then s else s.setF (Reg.twrStatMchk t) mchk
    s.modTw t (fun w => { run := w.run, track := w.track, late := w.late, tlbs := w.tlbs, l2 := w.l2, l2keep := w.l2keep, walkCache := w.walkCache })

/-- A step leaves its Towers; after a part fault the Keep resets them (R468, R542). -/
def State.freeStep (s : State) (k : Nat) : State := match Tab.find s.steps k with
  | some st =>
    let s := s.releaseStep k
    if st.struck then overList st.towers (fun t s => s.resetTower t) s else s
  | none => s

/-- The step ends with a status: its Towers are released, and it posts (R58, R466, R564). -/
def State.finish (s : State) (k status : Nat) (ans : CqAnswers) : State := match Tab.find s.steps k with
  | some st =>
    let x : Completion := ⟨status, k % 65536, st.reexec, st.used, st.fieldAt 8 8, st.energy, st.exact,
      if status = 0 then st.result else 0⟩
    let s := s.freeStep k
    ({ s with steps := Tab.del s.steps k }).post (k / 65536) x ans
  | none => s

/-- The follower has no directions for the step's Towers on die 1 (R27). -/
def State.stepOut (s : State) (st : StepSt) : Bool := !s.roll.directed && st.towers.any (fun t => decide (64 ≤ t))

/-- Head steps that failed a check, or were cancelled, post once that has taken effect (R27, R456, R462). -/
def State.postFailed (s : State) (n : Nat) (ans : CqAnswers) : Nat → State
  | 0 => s
  | fuel + 1 => match s.headOf n with
    | some (i, st) =>
      if st.fail ≠ 0 ∧ st.due ≤ s.roll.rc ∧ s.stepOut st = false then (s.finish (n * 65536 + i) st.fail ans).postFailed n ans fuel else s
    | none => s

/-- A struck step: its Towers are reset, and it is re-executed, or posted (R468). -/
def State.handleStruck (s : State) (k : Nat) (ans : CqAnswers) : State := match Tab.find s.steps k with
  | none => s
  | some st =>
    let s := s.freeStep k
    let limit := fld s.roll.keepCfg Reg.keepCfgReexecMax.hi Reg.keepCfgReexecMax.lo
    if st.restart && s.rowThree st then s.finish k 0x10A ans
    else if st.restart && decide (st.reexec < limit) && !rowFour st then
      s.modStep k (fun st => { st with phase := .waiting, reexec := st.reexec + 1, used := 0, stay := 0, struck := false,
                                       progErr := false, energy := 0, exact := true, result := 0 })
    else s.finish k 0x201 ans

/-! Dispatch (R301, R465). -/

/-- Registers of a Tower's blocks that dispatch does not reset: counters, spare rows, and what only the driver or a
Keep writes (R301). -/
def keptOffsets : List Nat :=
  [0x30, 0x50, 0x58, 0x60, 0x68, 0x80, 0x88, 0x90, 0x98, 0x210, 0x218, 0x3010, 0x3020, 0x3028, 0x3030, 0x4020, 0x5020,
   0x5028, 0x5040, 0x6030, 0x7018, 0x7020, 0x7028, 0x7030, 0x8008, 0x8010, 0x8018]

def inTower (t a : Nat) : Bool := decide (towerBase t ≤ a) && decide (a < towerBase t + 0x100000)

/-- Registers of a Tower that dispatch resets and a context holds, by offset. -/
def State.contextRegs (s : State) (t : Nat) : Tab Dword :=
  (s.regs.filter (fun e => inTower t e.1 && !keptOffsets.contains (e.1 - towerBase t))).map (fun e => (e.1 - towerBase t, e.2))

/-- Gives the registers of a Tower that a context holds these values; SPR_FILL.EN stays (R301). -/
def State.putContextRegs (s : State) (t : Nat) (regs : Tab Dword) : State :=
  let en := s.f (Reg.sprFillEn t)
  let s := { s with regs := s.regs.filter (fun e => !inTower t e.1 || keptOffsets.contains (e.1 - towerBase t)) }
  let s := overList regs (fun e s => s.wr (towerBase t + e.1) e.2) s
  if s.f (Reg.sprFillEn t) = en then s else s.setF (Reg.sprFillEn t) en

/-- `tower` and `bwin` (R262). -/
def towerWord (t rank count : Nat) : Dword := BitVec.ofNat 64 (t + rank * 2 ^ 16 + count * 2 ^ 32)
def Channel.bwin (c : Channel) : Dword := BitVec.ofNat 64 (c.bwinBase * 2 ^ 16 + c.bwinLen)

/-- What the physical Tower keeps over a change of step: translations, and requests of earlier steps without an answer. The timer's count is the new step's: 0 at a dispatch,
the context's where it still has an owner (R301, R332, R473). -/
def Tower.keep (old new : Tower) (smp : Nat) : Tower :=
  { new with track := old.track, late := old.late, tlbs := old.tlbs, l2 := old.l2, l2keep := old.l2keep, walkCache := old.walkCache,
             timer := if new.armed || decide (smp ≠ 0) then new.timer else 0 }

/-- A Tower takes a step in its entry state (R301). -/
def State.enterTower (s : State) (k : Nat) (st : StepSt) (c : Channel) (e : Nat × Nat) : State :=
  let t := e.1
  let arg := fun i => BitVec.ofNat 64 (st.fieldAt (0x10 + 8 * i) 8)
  let core : Core :=
    { g := overList (range 0 4) (fun i g => Tab.set g (i + 1) (arg i)) [],
      segs := Tab.set (Tab.set [] 0 (segAt st.desc 0x30)) 1 (segAt st.desc 0x40),
      pc := BitVec.ofNat 64 (st.fieldAt 0 4), bwin := c.bwin, tower := towerWord t e.2 st.need }
  let new : Tower := { core := core, run := .running, step := some k, rank := e.2 }
  let old := s.tw t
  (s.putContextRegs t []).setTw t (old.keep new (s.f (Reg.twrSmpCtrlEn t)))

/-- Dispatch: Towers take ranks in ascending number (R465). -/
def State.dispatch (s : State) (k : Nat) (ts : List Nat) : State := match Tab.find s.steps k with
  | none => s
  | some st =>
    let order := sortBy (fun t : Nat => t) ts
    let c := s.chan (k / 65536)
    let s := overList (order.zip (List.range order.length)) (fun e s => s.enterTower k st c e) s
    let s := s.setStep k { st with phase := .resident, towers := order, reserved := [], stay := 0 }
    { s with roll := { s.roll with placed := s.roll.placed + 1 } }

/-! Preemption and restore (R220, R221, R470–R474). -/

/-- Bytes of a latch set's elements (R149, R165). -/
def Latch.bytes (l : Latch) : Nat := l.k * l.n * (match fmtOfCode l.wfmt with | some f => fmtBits f / 8 | none => 0)

/-- Bytes of the Turret's part of a context: five registers, four pointers, the loaded slots, and the counts of a stopped `tu.run`
(R196; log entry 74). -/
def Tower.turretBytes (w : Tower) : Nat :=
  40 + 4 * 32 + (w.turSlots.map (fun e => e.2.length)).foldl (· + ·) 0
    + (match w.turPart with | some p => 8 * p.counts.length | none => 0)

/-- Bytes of a Tower's context (R220, R473). A Tower that has executed `done` has none. -/
def State.contextBytes (s : State) (t : Nat) : Nat :=
  let w := s.tw t
  if w.run = .done then 0
  else
    let tiles := ((range 0 8).map (fun n =>
      if bit (s.rd (Reg.twrTstat t)) (16 + n) then s.extRows t n * s.extBytes t n else 0)).foldl (· + ·) 0
    let dome := (w.dome.map (fun e => if e.2.inuse then e.2.granules * 1024 + ceilDiv (e.2.m * e.2.n) 2 else 0)).foldl (· + ·) 0
    let vecs := popcount 32 (s.rd (Reg.vecInuse t)).toNat * 16384 + 32768
    let latches := ((w.active.toList ++ w.shadow.toList).map Latch.bytes).foldl (· + ·) 0
    10240 + tiles + dome + vecs + latches + w.turretBytes + w.held' * 64

def State.saveBytes (s : State) (st : StepSt) : Nat := (st.towers.map s.contextBytes).foldl (· + ·) 0

/-- The instruction writes memory from vector registers. -/
def vecStores : Instr → Bool
  | .vst .. | .vsts .. | .vstx .. => true
  | _ => false

/-- A store of the vector unit, or a scatter, is under way. -/
def Tower.vecStoring (w : Tower) : Bool := match w.qVec.head? with
  | some x => (match x.kind with | .insn i => vecStores i | _ => false)
  | none => false

/-- The vector unit at a preemption: a store in its data phase goes on; any other memory instruction is abandoned and starts
again at element 0 (R255). -/
def State.vecHalt (s : State) (t : Nat) : State :=
  let w := s.tw t
  if w.vecStoring && Tab.has w.plans 1 then s
  else s.modTw t (fun w => { w.setBegun .vec false with plans := Tab.del w.plans 1, gates := Tab.del w.gates 1 })

/-- The tile engine at a preemption: between two rows it stops as R216 gives; a row under way goes on (R218). -/
def State.tileHalt (s : State) (t : Nat) : State :=
  let w := s.tw t
  let named := match w.qTile.head?.map (·.kind) with
    | some (.insn (.tld _ _ d _ _ _)) => some d
    | some (.insn (.tst _ _ _ _ tt _)) => some tt
    | _ => none
  match named with
  | some d =>
    if w.sTile = .running ∧ w.begun.contains Eng.tile.num = true ∧ Tab.has w.plans 3 = false
    then s.tileHold t d.toNat (s.f (Reg.twrTstartRow t)) else s
  | none => s

/-- A Tower of a preempted step stops issuing (R196, R218, R255, R320, R394, R498): what is under way goes on while it saves. -/
def State.haltTower (s : State) (t : Nat) : State :=
  let (done, s) := (if s.f (Reg.sprFillDuty t) = 0 then s else s.setF (Reg.sprFillDuty t) 0).turHalt t
  let s := if done then s.modTw t (fun w => w.popHead .tur) else s
  (((s.vecHalt t).tileHalt t).leaveFaults t).modTw t (fun w => { w with run := .saving, held := false })

/-- Preemption: the Towers stop issuing and begin to save; one that has executed `done` is released at once (R320, R394,
R471, R473, R498). -/
def State.preempt (s : State) (k : Nat) : State := match Tab.find s.steps k with
  | none => s
  | some st =>
    let s := s.setStep k { st with phase := .preempted, stay := 0 }
    let s := overList st.towers (fun t s =>
      if (s.tw t).run = .done then
        let w := s.tw t
        (s.modStep k (fun st => { st with saved := st.saved ++ [⟨w.rank, { w.quit 0 with track := [] }, [], 0⟩], towers := st.towers.filter (· ≠ t) })).releaseTower t
      else s.haltTower t) s
    { s with roll := { s.roll with preempted := s.roll.preempted + 1 } }

/-- A core waits at `bwait`. -/
def Wait.atBit : Wait → Bool
  | .bwait .. => true
  | _ => false

/-- A Tower as its context holds it, its L1 and store buffer empty (R320): waits and stops that are executed afresh on restore (R255,
R289, R348, R394), tiles within their extents (R220), Dome lanes of tiles in use (R221). A core that waits at `bwait` still
stands there, with no Spire activity behind it (R498). -/
def State.contextTower (s : State) (t : Nat) : Tower :=
  let w := s.tw t
  let go := fun (x : Stop) => if x = .xlat then Stop.running else x
  let stays := fun (n : Nat) => decide (n ≠ Eng.num .vec) || decide (w.sVec = .segFault)
  let inTile := fun (a : Nat) =>
    let n := a / 32768
    bit (s.rd (Reg.twrTstat t)) (16 + n) && decide (a % 32768 / 256 < s.extRows t n) && decide (a % 256 < s.extBytes t n)
  { w with
    core := { w.core with
      wait := if w.core.wait.atBit then w.core.wait else .none
      waitAt := if w.core.wait.atBit then w.core.waitAt else 0
      loop := .idle, l1 := [], plru := [], fill := none, victim := none, sbuf := [] },
    tiles := Tab.keep w.tiles inTile,
    dome := w.dome.map (fun e => if e.2.inuse then e else (e.1, e.2.clear)),
    sVec := go w.sVec, sDom := go w.sDom, sSpr := go w.sSpr, sTur := go w.sTur, sTile := go w.sTile, sStr := go w.sStr,
    slots := w.slots.map (fun e => (e.1, { e.2 with stopped := if e.2.stopped = 2 then 0 else e.2.stopped,
                                                    ahead := none, aheadStop := false })),
    track := [], gates := [], plans := [], begun := w.begun.filter stays, starved := [], turn := 0, rot := [],
    tlbs := [], l2 := [], l2keep := [], walkCache := [], walks := [] }

/-- Nothing of a preempted step is under way on a Tower: its requests are answered, its stores accepted, its engines quiet
(R218, R220, R255, R320, R348). -/
def Tower.quiet (w : Tower) : Bool :=
  w.track.all (fun e => e.done || e.gone.isSome) && decide (w.core.sbuf = []) && w.core.victim.isNone && w.core.fill.isNone
    && !Tab.has w.plans 1 && !Tab.has w.plans 2 && !Tab.has w.plans 3
    && !(w.begun.contains Eng.dom.num && decide (w.sDom = .running))

/-- The context of rank `r` goes to that rank's slot of the channel's save area, in whole granules and in a layout that is not
described: free bytes (R454, R473; log entry 73). -/
def State.saveArea (s : State) (c : Channel) (r n : Nat) : State :=
  if c.saveTowers ≤ r then s
  else (granules (c.saveBase + 0x10000 + r * 0x180000) (ceilDiv n 64 * 64)).foldl (fun s p =>
    let (bs, s) := s.freeBytes p.2
    (s.keepWrite p.1 bs .ok).2) s

/-- The Keep saves a Tower's context once what it has under way is complete and its stores and dirty lines are written; the
Tower is then free (R61, R220, R320, R473). `up` is what the
core's registers, or the parity check of its dirty lines, meet. -/
def State.saveTower (s : State) (t : Nat) (up : Upset) : State :=
  if (s.tw t).run ≠ .saving then s
  else if up = .regs then s.machineCheck (.tower (BitVec.ofNat 7 t)) 5 0
  else
    let (ok, s) := (s.enginesGo t).flush (.tower (BitVec.ofNat 7 t)) up
    let w := s.tw t
    if w.run ≠ .saving ∨ ok = false ∨ w.quiet = false then s
    else match w.step with
      | none => s
      | some k =>
        let s := overList (range 0 16) (fun i s => s.slotSettle t i) s
        let x : Saved := ⟨w.rank, s.contextTower t, s.contextRegs t, s.contextBytes t⟩
        let s := s.saveArea (s.chan (k / 65536)) x.rank x.bytes
        (s.modStep k (fun st => { st with saved := st.saved ++ [x], towers := st.towers.filter (· ≠ t) })).releaseTower t

/-- CONTEXT_SAVE: a preempted step's Tower has quiesced and its context is saved (R220, R473). -/
def execContextSave (x : TowerRun) (s : State) : Out := .next (s.saveTower x.tower.toNat x.up)

/-- Queued control-register writes follow the step to another Tower. -/
def QEntry.rebase (old new : Nat) (x : QEntry) : QEntry := match x.kind with
  | .crw a v => if inTower old a then { x with kind := .crw (a - towerBase old + towerBase new) v } else x
  | _ => x

/-- A Tower takes back a saved context (R474): the core starts once all have. -/
def State.restoreTower (s : State) (k : Nat) (e : Nat × Saved) : State :=
  let t := e.1
  let x := e.2
  let old := s.tw t
  let from' := (x.tower.core.tower).toNat % 128
  let re := fun (q : List QEntry) => q.map (QEntry.rebase from' t)
  let w := x.tower
  let core := { w.core with tower := setFld w.core.tower 6 0 t }
  let new : Tower :=
    { w with core := core, step := some k, rank := x.rank, run := if w.run = .done then .done else .restoring, held := false,
             qVec := re w.qVec, qSpr := re w.qSpr, qDom := re w.qDom, qTur := re w.qTur, qTile := re w.qTile, qStr := re w.qStr }
  let s := (s.putContextRegs t x.regs).setTw t (old.keep new (s.f (Reg.twrSmpCtrlEn t)))
  if new.armed && s.fb (Reg.twrSmpCtrlEn t) then s.degrade t else s

/-- A restore begins: saved ranks take the Towers in ascending number, and arrivals at barriers follow (R439, R474). -/
def State.restore (s : State) (k : Nat) (ts : List Nat) : State := match Tab.find s.steps k with
  | none => s
  | some st =>
    let order := sortBy (fun t : Nat => t) ts
    let saved := sortBy (fun (x : Saved) => x.rank) st.saved
    let s := overList (order.zip saved) (fun e s => s.restoreTower k e) s
    let towerOf := fun (r : Nat) => ((order.zip saved).find? (fun (e : Nat × Saved) => decide (e.2.rank = r))).map (·.1)
    let moveTo := fun (a : Arrival) => if a.step = k then { a with tower := (towerOf a.rank).getD a.tower } else a
    let moved : Tab CollSlot := s.colls.map (fun (e : Nat × CollSlot) => (e.1, { e.2 with arrived := e.2.arrived.map moveTo }))
    let s := { s with colls := moved }
    let s := s.setStep k { st with phase := .resident, towers := order, reserved := [], saved := [], stay := 0 }
    { s with roll := { s.roll with placed := s.roll.placed + 1 } }

/-- A Tower whose context is back goes on: an instruction stopped by the preemption or on a translation fault resumes (R217,
R255, R394). -/
def State.resumeTower (s : State) (t : Nat) : State :=
  if (s.tw t).run ≠ .restored then s
  else
    let s := if (s.tw t).sTile = .running then s.setF (Reg.twrTstatStopped t) 0 else s
    let s := if (s.tw t).sVec = .running then s.setF (Reg.vecStatStopped t) 0 else s
    s.modTw t (fun w => { w with run := .running })

/-- All Towers of a step have their contexts back: its cores begin to issue (R474). -/
def State.startRestored (s : State) (k : Nat) : State := match Tab.find s.steps k with
  | none => s
  | some st =>
    if st.towers.any (fun t => decide ((s.tw t).run = .restoring)) then s
    else overList st.towers (fun t s => s.resumeTower t) s

/-- CONTEXT_RESTORE: a Tower's saved bytes have moved back, or their read got an error response, which strikes the step
(R467, R474). -/
def execContextRestore (t : TId) (err : Bool) (s : State) : Out :=
  let n := t.toNat
  .next (if (s.tw n).run ≠ .restoring then s
    else if err then s.strike n
    else
      let s := s.modTw n (fun w => { w with run := .restored })
      match (s.tw n).step with
      | some k => s.startRestored k
      | none => s)

/-! Acceptance (R53, R458, R459). -/

/-- A Keep's read whose answer, if the range lies in the window, is the host die's. -/
def State.keepReadAns (s : State) (a n : Nat) (resp : Resp) : Option (List Byte) × State :=
  if inWindow a n && decide (resp ≠ .ok) then
    (none, s.setF (if resp = .timeout then Reg.hstStatTimeout else Reg.hstStatHosterr) 1)
  else s.keepRead a n

/-- The gate of R459. -/
def State.gateOpen (s : State) (n : Nat) : Bool :=
  let c := s.chan n
  decide (c.state = 1) && decide (c.sqCons ≠ c.sqProd)
    && decide ((s.stepsOf n).length + c.heldC.length + (c.posted + 65536 - c.cqCons) % 65536 < 2 ^ c.cqLog)

/-- A doorbell raises its channel's producer value to `prod`, or lowers it: a descriptor waits from the first doorbell that covers it
(R459). -/
def doorbellOrder (bells : List (Nat × Nat)) (n cons prod : Nat) : List (Nat × Nat) :=
  let dist := fun (p : Nat) => (p + 65536 - cons) % 65536
  let l := bells.map (fun e => if e.1 = n ∧ dist prod < dist e.2 then (n, prod) else e)
  if l.any (fun e => decide (e.1 = n) && decide (dist prod ≤ dist e.2)) then l else l ++ [(n, prod)]

/-- The channel whose descriptor the Keep consumes next: of the first doorbell that covers one whose gate is open (R459). -/
def State.nextToConsume (s : State) : Option Nat :=
  (s.adm.bells.find? (fun e => s.gateOpen e.1 && decide ((s.chan e.1).sqCons ≠ e.2))).map (·.1)

/-- Doorbells that every descriptor they cover has been consumed of go. -/
def State.servedBells (s : State) (n : Nat) : State :=
  { s with adm := { s.adm with bells := s.adm.bells.filter (fun e => decide (e ≠ (n, (s.chan n).sqCons))) } }

/-- The Keep reads and checks the next descriptor of a channel, and accepts the step (R459, R461, R462). -/
def State.consume (s : State) (n : Nat) (resp : DescAns) : State :=
  let c := s.chan n
  if s.gateOpen n = false then s
  else
    let i := c.sqCons
    match s.keepReadAns (c.sqBase + 128 * (i % 2 ^ c.sqLog)) 128 resp.desc with
    | (none, s) => s.chanFault n
    | (some d, s) =>
      let st : StepSt := { desc := d, regions := [], fail := 0, due := s.stamp }
      let s := (s.modChan n (fun c => { c with sqCons := (i + 1) % 65536 })).servedBells n
      let count := st.fieldAt 0x58 2 + st.fieldAt 0x5A 2
      if s.descMalformed d then s.setStep (n * 65536 + i) { st with fail := 0x102 }
      else
        let (l, s) := if count = 0 then (some [], s) else s.keepReadAns (st.fieldAt 0x50 8) (16 * count) resp.list
        match l with
        | none => s.setStep (n * 65536 + i) { st with fail := 0x201 }
        | some bs =>
          let st := { st with regions := regionList bs count }
          let save := if c.saveBase = 0 then none else some c.saveTowers
          let fail := if regionsBad st.regions then 0x102 else if rowTwo st save then 0x103
            else if s.rowThree st then 0x10A else if rowFour st then 0x109 else 0
          s.setStep (n * 65536 + i) { st with fail := fail }

/-- DESCRIPTOR_CONSUME: the Keep takes descriptors across channels in doorbell order; that of another channel than the next waits
its turn (R459). -/
def execDescriptorConsume (n : BitVec 14) (resp : DescAns) (s : State) : Out :=
  .next (if s.nextToConsume = some n.toNat then s.consume n.toNat resp else s)

/-- A doorbell write (R458); after an abort it changes CQ_CONS alone (R456). -/
def State.doorbellWrite (s : State) (n : Nat) (v : Dword) : State :=
  let c := s.chan n
  let prod := fld v 15 0
  let cons := fld v 31 16
  let aborted := decide (c.state = 2) || (decide (c.state = 3) && c.abortPend)
  let bad := !c.live || decide (fld v 63 48 ≠ c.gen)
    || (!aborted && decide (2 ^ c.sqLog < (prod + 65536 - c.sqCons) % 65536))
    || decide ((c.posted + 65536 - c.cqCons) % 65536 < (cons + 65536 - c.cqCons) % 65536)
  if bad then s.satF Reg.keepDbRejCount 1
  else if aborted then s.setChan n { c with cqCons := cons }
  else
    let s := s.setChan n { c with cqCons := cons, sqProd := prod }
    { s with adm := { s.adm with bells := doorbellOrder s.adm.bells n c.sqCons prod } }.servedBells n

/-- KEEP_DBn (R458). -/
def execKeepDbn (n : BitVec 14) (v : Dword) (s : State) : Out := .next (s.doorbellWrite n.toNat v)

end Sys2Proof.Machine
end

