-- ==== Sys2Proof/Machine/Boot.lean ====
section
/-! DEFINITION. Power-up, resets, secure boot, the test access port, the UCIe attach, interrupts to the host die
(R362–R367, R509–R518, R525–R547). -/

namespace Sys2Proof.Machine

/-! Images (R545, R546). -/

/-- A slot, slot B for true, still holds its image of manufacture; the bytes staged in it since. -/
def Flash.made (f : Flash) (b : Bool) : Bool := if b then f.madeB else f.madeA
def Flash.slot (f : Flash) (b : Bool) : List Byte := if b then f.slotB else f.slotA

/-- A slot is erased and holds these bytes from now on (R548). -/
def Flash.setSlot (f : Flash) (b : Bool) (bs : List Byte) : Flash :=
  if b then { f with slotB := bs, madeB := false } else { f with slotA := bs, madeA := false }

/-- What the image in a slot says of itself (R545). -/
def State.imageOf (s : State) (b : Bool) : FactoryImage :=
  if s.flash.made b then (if b then s.boot.env.imageB else s.boot.env.imageA)
  else
    let bs := s.flash.slot b
    ⟨BitVec.ofNat 32 (leAt bs 4 4), BitVec.ofNat 32 (leAt bs 0 4), bs.take 0xA00⟩

/-- Code of the first check of R546 that an image fails, 0 if it passes. A key is its modulus and exponent. -/
def imageCode (bs : List Byte) (svnMin : Nat) : Nat :=
  let sub := fun (o n : Nat) => (bs.drop o).take n
  let len := leAt bs 8 4
  if len < 0x2000 ∨ 0x1000000 < len ∨ bs.length < len ∨ 2 ≤ leAt bs 0xC 4 ∨ zeroAt bs 0x50 176 = false
      ∨ zeroAt bs 0x304 508 = false ∨ zeroAt bs 0x704 252 = false ∨ zeroAt bs 0xC00 1024 = false then 1
  else if sha512 (sub 0x100 516) ≠ Config.rootKeyHash then 2
  else if rsaVerify (sub 0x100 516) (sub 0x500 768) (sub 0x800 512) = false then 3
  else if rsaVerify (sub 0x500 516) (sub 0 0xA00) (sub 0xA00 512) = false then 4
  else if leAt bs 4 4 < svnMin then 5
  else if sha512 (sub 0x1000 (len - 0x1000)) ≠ sub 0x10 64 then 6
  else 0

/-- What verification of a slot finds (R546). Of an image of manufacture the environment says what the checks find but for the fifth,
that of its SVN (log entry 39). -/
def State.slotCode (s : State) (b : Bool) : Nat :=
  if s.flash.made b then
    let c := (if b then s.boot.env.codeB else s.boot.env.codeA).toNat
    if 1 ≤ c ∧ c ≤ 4 then c else if (s.imageOf b).svn.toNat < s.flash.svnMin then 5 else c
  else imageCode (s.flash.slot b) s.flash.svnMin

def State.modFlash (s : State) (f : Flash → Flash) : State := { s with flash := f s.flash }
def State.modBoot (s : State) (f : BootSt → BootSt) : State := { s with boot := f s.boot }

/-- `SEC_FW` (R558). -/
def State.secVersions (s : State) : State :=
  let ver := fun b => if s.slotCode b = 0 then (s.imageOf b).version.toNat else 0
  (s.setF Reg.secFwVerA (ver false)).setF Reg.secFwVerB (ver true)

/-- FIRMWARE_VERIFY: the boot ROM's choice of a slot (R546). -/
def State.secureBoot (s : State) : State :=
  let f := s.flash
  let s :=
    if f.trial && f.tried then (s.modFlash (fun f => { f with active := !f.active, trial := false })).setF Reg.secStatReverted 1
    else if f.trial then s.modFlash (fun f => { f with tried := true })
    else s
  let a := s.flash.active
  let ca := s.slotCode a
  let cb := s.slotCode (!a)
  let failF := fun b => if b then Reg.secStatFailB else Reg.secStatFailA
  let s := s.setF (failF a) ca
  let s := if ca = 0 then s else s.setF (failF (!a)) cb
  let run := if ca = 0 then some a else if cb = 0 then some (!a) else none
  let s := (s.setF Reg.secStatSlot (b2n (run.getD a))).setF Reg.secSvnSvnMin s.flash.svnMin
  match run with
  | none => s
  | some b =>
    let s := s.modBoot (fun x => { x with fw := some b, state := 1, image := s.imageOf b })
    let s := s.setF Reg.secStatTrial (b2n (s.flash.trial && decide (b = a)))
    (s.setF Reg.secSvnSvn (s.imageOf b).svn.toNat).secVersions

/-! Flash records applied by firmware (R515, R538, R539). -/

/-- The configuration record; the roll source only after a power-up reset. -/
def State.applyConfig (s : State) (cold : Bool) : State :=
  let c := s.boot.config
  let s := (((s.setF Reg.gwlIdModule (leAt c 2 2 % 4096)).setF Reg.gwlIdXs (leAt c 4 1 % 16)).setF Reg.gwlIdYs
    (leAt c 5 1 % 16)).setF Reg.gwlIdZs (leAt c 6 1 % 16)
  let s := s.setF Reg.memCfgReserveNext (leAt c 7 1 / 2 % 2)
  if cold then
    let s := (s.setF Reg.rollCfgSource (leAt c 7 1 % 2)).setF Reg.rollCfgSrcModule (leAt c 8 2 % 4096)
    let s := { s with roll := { s.roll with cfg := s.rd Reg.rollCfg } }
    if leAt c 7 1 % 2 = 1 then s.setF Reg.rollStatAligned 1 else s
  else s

/-- Ports: retired, disabled in a ring of one, or training; their lanes as marked (R408, R409, R416, R515). -/
def State.applyPorts (s : State) : State :=
  overList (range 0 18) (fun p s =>
    let st := if s.flash.retired.any (fun e => decide (e.1 = partPort p)) then 5
      else if s.ring (p % 3) = 1 then 7 else 1
    (s.setF (Reg.gwlPortState p) st).setF (Reg.gwlPortBadlanes p) (Tab.get 0 s.flash.lanes p)) s

/-- A Tower's self-test at power-up: it reads the store, which is then cleared; the Tower serves with its spare rows mapped, or is
retired (R510–R512). -/
def State.powerUpTest (s : State) (t : Nat) (r : TestResult) : State :=
  if s.inService t = false then s
  else
    let s := { s.storeTest t r with badWords := s.badWords }
    let old := s.rd (Reg.sprSpare t)
    match spareAfter old r with
    | none => (s.judged (partTower t) 1 1 1).retireTower t 1
    | some v => (s.wr (Reg.sprSpare t) v).recordSpares t old v

/-- Towers: recorded retirements, spare rows, then the self-tests (R510, R511, R515). -/
def State.applyTowers (s : State) : State :=
  let out := (s.flash.retired.filter (fun e => decide (e.1 / 2 ^ 24 = 1))).map (fun e => e.1 % 2 ^ 24)
  let s := overList out (fun t s => if t < 128 then s.modTw t (fun w => { w with run := .retired }) else s) s
  let s := overList s.flash.spares (fun e s => s.wr (Reg.sprSpare e.1) e.2.1) s
  let s := s.setF Reg.keepStatTowers (((range 0 128).filter s.inService).length)
  overList s.boot.env.towerTests (fun e s => s.powerUpTest e.1.toNat e.2) s

/-- The memory layout of a list L with reserve `r`; `gone` are its retired devices, the first of which has the spare
frames if there are any (R362, R363, R366). -/
def State.layout (s : State) (l : List Nat) (r : Nat) (gone : List Nat) : State :=
  let n := l.length
  let size := if n < 16 then 0 else n * ((n - r) * 983040 / n) * 65536
  let spare := decide (r = 1)
  let moved := if spare then gone.head? else none
  let lost := if spare then gone.tail else gone
  let s := { s with dev := { order := l, moved := moved, copied := none, lost := lost, silent := [] } }
  let s := ((s.setF Reg.memSizeSize size).setF Reg.memStatN n).setF Reg.memStatReserve r
  let s := (s.setF Reg.memStatNomem (b2n (decide (n < 16)))).setF Reg.memStatDegraded (b2n (decide (lost ≠ [])))
  let s := s.setF Reg.memStatSpare (b2n (spare && moved.isNone))
  overList (range 0 24) (fun d s => match l.findIdx? (· = d) with
    | some i => (s.setF (Reg.memDevIndex d) i).setF (Reg.memDevState d) (if gone.contains d then 2 else 0)
    | none => (s.setF (Reg.memDevIndex d) 0xFF).setF (Reg.memDevState d) 3) s

/-- A device's saved coefficients are valid (R367). -/
def State.coeffValid (s : State) (d version : Nat) : Bool := match Tab.find s.flash.coeffs d with
  | none => false
  | some c => c.good && decide (c.serial = Config.serial) && decide (c.ident = ((s.boot.env.devIdent[d]?).getD 0).toNat)
      && decide (c.version = version)

/-- The coefficient records as the power-up finds them, and the devices that are then fully trained: of all 24, those without valid
coefficients. New coefficients go to the flash (R367). -/
def State.trainDevices (s : State) : List Nat × State :=
  let env := s.boot.env
  let spoil := fun (e : Nat × Coeff) =>
    (e.1, { e.2 with good := e.2.good && !env.coeffBad.any (fun d => decide (d.toNat = e.1)) })
  let s := s.modFlash (fun f => { f with coeffs := f.coeffs.map spoil })
  let version := match s.boot.fw with | some _ => Config.trainVersion s.boot.image.head | none => 0
  let full := (range 0 24).filter (fun d => !s.coeffValid d version)
  let fails := fun (d : Nat) => env.devFail.any (fun e => decide (e.toNat = d))
  let s := overList (full.filter (fun d => !fails d)) (fun d s =>
    s.flashPut (.coeff d ⟨Config.serial, ((env.devIdent[d]?).getD 0).toNat, version, (env.devCoeff[d]?).getD 0, true⟩)) s
  (full, s)

/-- GDDR7_TRAINING and the layout: a device that fails and is not recorded is retired; a re-layout drops the retired
devices and those that fail (R362–R367). -/
def State.applyMemory (s : State) : State :=
  let env := s.boot.env
  let known := ((s.flash.retired.filter (fun e => decide (e.1 / 2 ^ 24 = 2))).map (fun e => e.1 % 2 ^ 24))
  let (full, s) := s.trainDevices
  let s := (s.setF Reg.memTrainMs env.trainMs.toNat).setF Reg.memTrainFull (b2n (decide (full ≠ [])))
  let bad := full.filter (fun d => !known.contains d && env.devFail.any (fun e => decide (e.toNat = d)))
  let s := overList bad (fun d s => (s.flashPut (.retire (partDevice d) 0)).event 0x20 (partDevice d) [0, 0]) s
  if s.flash.relayout then
    let l := (range 0 24).filter (fun d => !known.contains d && !bad.contains d)
    let r := s.f Reg.memCfgReserveNext
    (s.modFlash (fun f => { f with order := l, reserve := r, relayout := false })).layout l r []
  else
    let l := s.flash.order
    s.layout l s.flash.reserve (((known ++ l.filter bad.contains).filter l.contains))

/-- MARGIN_PLANNING of a region: at each operating point the least margin, in steps of 5 mV, at which every monitor of its Towers in
service shows 20 ps, 65 where 60 mV do not do (log entry 82); a Tower that alone needs more at OP0 is retired; the baselines are the slacks at the
planned margin. The plan is recorded if it is new; no region has an ask yet (R477, R482, R518, R520). -/
def State.planMargins (s : State) (r : Nat) : State :=
  let plan := (s.boot.env.plan[r]?).getD ⟨[], []⟩
  let slack := fun (i op : Nat) => (((plan.slack[i]?).getD [])[op]?).getD []
  let ts := ((towersIn r).zip (range 0 4)).filter (fun e => s.inService e.1)
  let (need, bad) := planRegion (ts.map (fun e => (e.1, (range 0 8).map (fun op => (0, slack e.2 op))))) plan.slope
  let mv := need.map (min 65)
  let base := (range 0 8).map (fun op => (range 0 4).flatMap (fun i =>
    (slack i op).map (fun x => slackAt x ((plan.slope[op]?).getD 0) 0 ((mv[op]?).getD 0 : Nat))))
  let s := overList bad (fun t s => (s.judged (partTower t) 6 1 1).retireTower t 6) s
  let at' := fun (op : Nat) => r * 8 + op
  let known := decide ((range 0 8).map (fun op => Tab.get 0 s.flash.margins (at' op)) = mv)
    && decide ((range 0 8).map (fun op => Tab.get [] s.flash.base (at' op)) = base)
    && decide ((range 0 8).map (fun op => Tab.get 0 s.flash.slope (at' op)) = plan.slope)
  let s := if known then s else s.flashPut (.margins r mv base plan.slope)
  let s := (s.putPlan' r base plan.slope).putMargins r mv
  (s.setF (Reg.pwrRegionCeil r) (marginMaxOf mv)).setF (Reg.pwrRegionOp r) 0

def State.applyMargins (s : State) : State := overList (range 0 32) (fun r s => s.planMargins r) s

/-- The layout is formed and the POWER_UP record queued; the READY time in it is not known before READY: a free value, until then (R521,
R539; log entry 120). -/
def powerUpDetail (slot ms towers n : Nat) : List Byte := leBytes 1 slot ++ leBytes 2 ms ++ leBytes 1 towers ++ leBytes 1 n
def State.recordPowerUp (s : State) : State :=
  let (v, s) := s.free
  s.event 1 0 (powerUpDetail (b2n (s.boot.fw.getD false)) v.toNat (s.f Reg.keepStatTowers) (s.f Reg.memStatN))

/-- The power-up sequence up to the end of training and self-tests (R539). Without firmware it goes no further. -/
def State.runSequence (s : State) (cold : Bool) : State :=
  let s := s.modBoot (fun b => { b with running := true, state := 0, fw := none, config := s.flash.config })
  let s := s.secureBoot
  if s.boot.fw.isNone then s
  else
    let s := ((((s.applyConfig cold).applyPorts).applyTowers).applyMargins.applyMemory).recordPowerUp
    if s.boot.env.followerFail then s.followerFails 4 (fun _ => false) else s

/-! Resets (R525, R542, R543). -/

/-- Staging of an image that verified is cut short: the inactive slot holds what it held, or no verified image (R548); which, is
free. -/
def State.breakStage (s : State) : State := match s.boot.stage with
  | none => s
  | some st =>
    let (v, s) := s.free
    if st.code ≠ 0 ∨ v.getLsbD 0 = false then s
    else s.modFlash (fun f => f.setSlot (!f.active) [])

/-- Everything volatile at its Reset value. -/
def State.volatile (old : State) : State :=
  let s := old.breakStage
  { hostMem := s.hostMem, irqMsgs := s.irqMsgs, flash := s.flash, out := s.out, fresh := s.fresh, pending := s.pending,
    boot := { env := s.boot.env, straps := s.boot.straps } }

/-- Number of a block outside the Towers: 1 `ROLL_`, 7 `HST_`. -/
def blockOf (a : Nat) : Nat := (a - 0x1F0000000000) / 0x10000

/-- What stands outside the blocks a module reset resets: PWR_ALERT# as the regulators drive it and the gating under it, and the guards
of the dies with theirs (R490, R494). -/
def State.keepGuards (s old : State) : State :=
  let p := old.pwr
  let s := s.modPwr (fun q => { q with
    hot := p.hot, alertGate := p.alertGate, alertRoll := p.alertRoll, alertGated := p.alertGated, gateFrom := p.gateFrom })
  (s.setF Reg.pwrStatAlert (old.f Reg.pwrStatAlert)).setF Reg.pwrStatGated (old.f Reg.pwrStatGated)

/-- MODULE_RESET, with its cause (R541–R543): no effect while THERM_TRIP# is asserted or without power. -/
def State.moduleReset (s : State) (cause : Nat) : State :=
  if s.boot.power = false ∨ s.boot.trip = true then s
  else
    let wdog := if cause = 4 then min 3 (s.f Reg.hstRstCauseWdogRun + 1) else 0
    let z := s.volatile
    let roll : RollSt :=
      { z.roll with
        passed := s.roll.passed, rc := s.roll.rc, len := s.roll.len, adopt := s.roll.adopt, fine := s.roll.fine,
        left := s.roll.left, cfg := s.roll.cfg,
        cfgDue := s.roll.cfgDue, gaps := s.roll.gaps, everLock := s.roll.everLock, everAligned := s.roll.everAligned,
        stepped := s.roll.stepped, near := s.roll.near, agree := s.roll.agree, parentLost := s.roll.parentLost,
        t1 := s.roll.t1 }
    let kept := s.regs.filter (fun e => decide (blockOf e.1 = 1) || decide (blockOf e.1 = 7))
    let boot : BootSt := { z.boot with tap := s.boot.tap, tapStop := s.boot.tapStop, identity := s.boot.identity }
    let z := { z with regs := kept, roll := roll, boot := boot, irqLevel := s.irqLevel, lateWrites := s.lateWrites }
    let z := z.keepGuards s
    let smb := s.f Reg.pwrCapSmb
    let z := (z.setF Reg.pwrCapSmb smb).setF Reg.pwrCapInForce (min smb (z.f Reg.pwrCapDrv))
    let z := ((z.setF Reg.hstStatReady 0).setF Reg.hstRstCauseCause cause).setF Reg.hstRstCauseWdogRun wdog
    (z.runSequence false).irqSync

/-- A UCIe module changes state; all four DOWN are a module fault (R535, R536). -/
def State.ucieTo (s : State) (n st : Nat) : State :=
  if s.f (Reg.hstUcieState n) = st then s
  else
    let s := (s.setF (Reg.hstUcieState n) st).irqLatch 5
    if (range 0 4).all (fun i => decide (s.f (Reg.hstUcieState i) = 3)) then s.haltModule else s

/-- A UCIe module's training ends: its state, its repairs, and its adapter's retries (R532, R558). -/
def State.ucieTrained (s : State) (n : Nat) (x : UcieTraining) : State :=
  let s := s.satF (Reg.hstUcieRetries n) x.retries.toNat
  let s := if x.st = 1 ∨ x.st = 2 then s.setF (Reg.hstUcieRepaired n) x.repaired.toNat else s
  s.ucieTo n (if x.st = 0 then 3 else x.st.toNat)

/-- POWER_UP_RESET: PWR_GOOD rises; the sequence runs up to READY (R39, R530, R532, R539, R542). -/
def execPowerUpReset (env : BootEnv) (s : State) : Out :=
  let z := s.volatile
  let z := z.modBoot (fun b => { b with env := env, straps := env.straps.toNat })
  let z := z.modFlash (fun f => { f with boots := f.boots + 1 })
  .next (overList ((range 0 4).zip env.ucie) (fun e z => z.ucieTrained e.1 e.2) (z.runSequence true))

/-- TRIAL_CONFIRM: the running trial is confirmed, and its lock raises SVN_MIN (R547). -/
def State.confirm (s : State) : State :=
  match s.boot.fw with
  | none => s
  | some _ =>
    if s.fb Reg.secStatTrial = false then s
    else
      let img := s.boot.image
      let svn := img.svn.toNat
      let low := if leAt img.head 0xC 4 % 2 = 1 ∧ s.flash.svnMin < svn then min svn 64 else s.flash.svnMin
      let s := s.modFlash (fun f => { f with trial := false, svnMin := low })
      (s.setF Reg.secStatTrial 0).setF Reg.secSvnSvnMin low

/-- A coefficient record (R367). -/
def FlashRec.isCoeff : FlashRec → Bool
  | .coeff .. => true
  | _ => false

/-- The POWER_UP record takes the READY time if it has not been programmed yet (log entry 120). -/
def State.readyTime (s : State) (ms : Nat) : State :=
  { s with flashq := { s.flashq with events := s.flashq.events.map (fun e =>
    if e.2.1 = 1 then (e.1, 1, e.2.2.1, e.2.2.2.take 1 ++ leBytes 2 ms ++ e.2.2.2.drop 3) else e) } }

/-- READY_ASSERT: READY rises `ms` milliseconds after the start of the sequence, once new coefficients are in the flash
(R521, R539, R547). EXTEST or CLAMP forbids it until the next power-up reset (R531). -/
def execReadyAssert (ms : Half) (s : State) : Out :=
  .next (match s.boot.fw with
    | none => s
    | some _ =>
      if s.boot.running = false ∨ s.boot.power = false ∨ s.alive = false ∨ s.boot.tapStop = true
          ∨ s.flashq.recs.any FlashRec.isCoeff = true then s
      else
        let s := s.modBoot (fun x => { x with running := false, state := 2 })
        let s := ((s.setF Reg.keepStatReady 1).setF Reg.hstStatReady 1).confirm
        { s with rel := { s.rel with teleFrom := s.roll.passed } }.readyTime ms.toNat)

/-- PWR_GOOD falls: everything volatile goes (R525, R540). -/
def execPwrGoodFall (s : State) : Out :=
  let z := s.volatile
  let z := z.modBoot (fun b => { b with power := false, running := false })
  .next { z with alive := false }

/-- READY has not asserted 2 s after the sequence started: a module reset, at most three in a row (R541). -/
def execBootWatchdog (s : State) : Out :=
  .next (if s.boot.running = false ∨ 3 ≤ s.f Reg.hstRstCauseWdogRun then s else s.moduleReset 4)

/-- A write to `HST_RESET` (R543). -/
def State.hstResetWrite (s : State) (v : Dword) : State := if fld v 15 0 = 0x5A5A then s.moduleReset 3 else s

def execHstReset (v : Dword) (s : State) : Out := .next (s.hstResetWrite v)

/-! The identity responder and the test access port (R531, R551). -/

/-- The Keeps have stopped: the responder takes over the SMBus target (R551). -/
def execIdentityResponderTakeover (s : State) : Out :=
  .next (if s.boot.power = false ∨ s.alive = true ∨ s.boot.tap = .extest ∨ s.boot.responder = true then s
    else
      let s := s.modBoot (fun b => { b with responder := true, state := 3 })
      { s with smb := {} })

/-- EXTEST or CLAMP is loaded (R531, R540). -/
def State.tapStops (s : State) (i : Tap) : State := s.haltModule.modBoot (fun b => { b with tap := i, tapStop := true })

def execTapExtest (s : State) : Out := .next (s.tapStops .extest)
def execTapClamp (s : State) : Out := .next (s.tapStops .clamp)
/-- BYPASS, also the choice of an unimplemented instruction, disturbs nothing (R531). -/
def execTapBypass (s : State) : Out := .next (s.modBoot (fun b => { b with tap := .bypass }))
/-- IDCODE shifts out the identification of stepping B0 (R531). -/
def execTapIdcode (s : State) : Out :=
  let s := s.modBoot (fun b => { b with tap := .idcode })
  .next { s with out := { s.out with tdo := some 0x11536A6D } }
def execTapSamplePreload (s : State) : Out := .next (s.modBoot (fun b => { b with tap := .sample }))

/-! The UCIe attach (R535, R536). -/

/-- A UCIe module cannot be repaired or fails retraining (R535). -/
def execUcieModuleDown (n : BitVec 2) (s : State) : Out := .next (s.ucieTo n.toNat 3)

/-- A module trains again, a DOWN one every 100 ms, one in service when its adapter asks for it: ACTIVE at one of the two rates, or DOWN
(R532, R535, R558). -/
def execUcieRetrainRetry (n : BitVec 2) (x : UcieTraining) (s : State) : Out :=
  .next ((s.satF (Reg.hstUcieRetrains n.toNat) 1).ucieTrained n.toNat x)

/-- A write to `HST_IRQ_EOI` sends another message while an enabled source is pending (R536). -/
def State.eoiWrite (s : State) (v : Dword) : State := if bit v 0 && s.irqOn then s.irqSend else s

def execHstIrqEoi (v : Dword) (s : State) : Out := .next (s.eoiWrite v)

/-! `MEM_CFG` (R364, R538). -/

/-- A write to `MEM_CFG`: a rate out of range stays; RESERVE_NEXT goes into the configuration record at the boundary
that R53 gives. -/
def State.memCfgWrite (s : State) (v : Dword) : State :=
  let s := if 16 ≤ fld v 47 32 ∧ fld v 47 32 ≤ 512 then s.setF Reg.memCfgMigRate (fld v 47 32) else s
  let s := s.setF Reg.memCfgReserveNext (b2n (bit v 0))
  { s with roll := { s.roll with memDue := s.roll.memDue ++ [(s.stamp, s.rd Reg.memCfg)] } }

def execMemCfg (v : Dword) (s : State) : Out := .next (s.memCfgWrite v)

/-- The configuration record that flash holds or waits to hold. -/
def State.configRecord (s : State) : List Byte := (s.flashq.recs.foldl Flash.put s.flash).config

/-- RESERVE_NEXT is copied into the configuration record (R538). -/
def State.copyReserve (s : State) (v : Dword) : State :=
  let c := s.configRecord
  let flags := leAt c 7 1
  let new := flags - flags / 2 % 2 * 2 + fld v Reg.memCfgReserveNext.hi Reg.memCfgReserveNext.lo * 2
  if new = flags then s else s.flashPut (.config (c.take 7 ++ leBytes 1 new ++ c.drop 8))

end Sys2Proof.Machine
end

