-- ==== Sys2Proof/Machine/TransRows.lean ====
section
/-! DEFINITION. The commands of translation: walks, the fault queue, roots, invalidation, prefetch, migration
(12_translation.md). -/

namespace Sys2Proof.Machine

/-- A register write within a grant by its access codes (R15). -/
def State.plainWrite (s : State) (a : Nat) (v grant : Dword) : State := match regInfo a with
  | some info => s.wr a (regMix (s.rd a) v info grant)
  | none => s

/-- TLB of a requester (R382). -/
def tlbOf : Requester → Nat
  | .core => 0 | .vector => 1 | .tile => 2 | .dome => 3 | .turret => 4 | .spire => 5
  | .stream k => 6 + k.toNat

/-- A parity error in an entry of the TLBs or of the walk cache: what they hold for the DVA is invalidated (R505). -/
def State.forgetDva (s : State) (t r dva : Nat) : State :=
  let asid := s.asidOf t
  s.modTw t (fun w =>
    { w with
      tlbs := Tab.set w.tlbs r ((Tab.get [] w.tlbs r).filter (fun e => !e.hits asid dva)),
      l2 := w.l2.filter (fun e => !e.hits asid dva),
      l2keep := w.l2keep.filter (fun e => !e.hits asid dva),
      walkCache := w.walkCache.filter (fun e => !(decide (e.asid = asid) && decide (e.vpn = dva / 2 ^ pageLog (e.level - 1)))) })

/-- What a unit records of a translation fault that its own attempt did not meet again: the vector unit the instruction at its head
and an element that no operand of the walk names, free (R249), the tile engine the row at which it stands (R216). -/
def State.walkRecord (s : State) (t : Nat) (acc : Access) (level addr adv dva : Nat) (kind : FaultKind) : Eng → State
  | .vec =>
    let i := match (s.tw t).qVec with
      | x :: _ => (match x.kind with | .insn i => i | _ => .nop (.tower 0))
      | [] => .nop (.tower 0)
    let (v, s) := s.free
    s.vecRecord t i (v.toNat % 65536) (decide (acc = .write)) (.xlat kind level addr adv dva)
  | .tile => s.tileHold t (match (s.tw t).qTile with
      | x :: _ => (match x.kind with | .insn (.tld _ _ d ..) => d.toNat | .insn (.tst _ _ _ _ tt _) => tt.toNat | _ => 0)
      | [] => 0) (s.f (Reg.twrTstartRow t))
  | _ => s

/-- A walk's fault stops an engine (R249, R216, R387): the engine meets it at the instruction at its head. -/
def State.walkStops (s s₀ : State) (t who : Nat) (e : Eng) (acc : Access) (kind : FaultKind) (level addr adv dva : Nat) : State :=
  let go := s₀.engGo t e
  if (s₀.tw t).stop e = .running ∧ (go.tw t).stop e = .xlat then go
  else (((s.raiseFault t who kind acc level addr adv dva).walkRecord t acc level addr adv dva kind e)).modTw t (fun w =>
    w.setStop e .xlat)

/-- A walk for a requester of a Tower that runs a step: the translation is installed, or the requester takes the fault;
the host die answers the walker's reads of the window (R379–R387, R566). A parity error in a cached entry leads to it by the
entry's invalidation (R505). -/
def execTableWalk (t : TId) (req : Requester) (acc : Access) (walk : WalkRequest) (s : State) : Out :=
  let n := t.toNat
  let dva := walk.dva
  let s₀ := if walk.upset then s.forgetDva n (tlbOf req) dva.toNat else s
  .next (if !s.enginesOn n then s else
    match s₀.translateWith walk.resp n (tlbOf req) acc dva.toNat with
    | (.ok _, s) => s
    | (.migWait, s) => s
    | (.err host, s) => s.walkFails (.tower t) host
    | (.fault kind level addr adv, s) => match req with
      | .core => (s.raiseFault n 0 kind acc level addr adv dva.toNat).stall (.tower t) .translation (s.core (.tower t)).waitAt
      | .vector => s.walkStops s₀ n 1 .vec acc kind level addr adv dva.toNat
      | .dome => s.walkStops s₀ n 2 .dom acc kind level addr adv dva.toNat
      | .tile => s.walkStops s₀ n 3 .tile acc kind level addr adv dva.toNat
      | .stream k =>
        (s.raiseFault n (4 + k.toNat) kind acc level addr adv dva.toNat).modSlot n k.toNat (fun l => { l with stopped := 2 })
      | _ => s)

/-! The fault queue (R389–R395). -/

/-- The record to be written next: the oldest fault without one, once it has, or finds, an entry of the table (R395). -/
def State.nextRecord (s : State) : Option XFault := match s.unwritten.head? with
  | none => none
  | some f =>
    if f.inTable || decide (f.kind = .physHole) || decide (f.kind = .prefetch) || decide (s.unresolved < 512) then some f
    else none

/-- Replaces the first record that satisfies `p`, or removes it. -/
def updFirst (p : XFault → Bool) (f : XFault → Option XFault) : List XFault → List XFault
  | [] => []
  | x :: xs => if p x then (match f x with | some y => y :: xs | none => xs) else x :: updFirst p f xs

/-- The oldest unwritten record is written if the queue has room; an error response disables the queue (R389, R395). -/
def execFaultRecordWrite (resp : Resp) (s : State) : Out :=
  .next (match s.nextRecord with
    | none => s
    | some f =>
      if s.fqFull then s
      else
        let id := s.f Reg.xltFqProdProd
        let a := s.f Reg.xltFqBaseAddr * 64 + id % 4096 * 64
        let (e, s) := s.keepWrite a (faultRecord f id s.now) resp
        if e then
          ((s.setF Reg.xltCtrlFqEn 0).setF Reg.xltStatFqErr 1).holdUnwritten
        else
          let s := s.setF Reg.xltFqProdProd (id + 1)
          let gone := decide (f.kind = .physHole) || decide (f.kind = .prefetch)
          let fs := updFirst (fun x => decide (x = f))
            (fun x => if gone then none else some { x with id := some id, inTable := true }) s.xlt.faults
          let s := { s with xlt := { s.xlt with faults := fs } }
          (if s.fb Reg.xltCtrlFqIe then s.irqLatch 1 else s).irqSync)

/-- The unresolved entry of a record (R393). -/
def State.entryOf (s : State) (id : Nat) : Option XFault :=
  s.xlt.faults.find? (fun f => f.inTable && decide (f.id = some id))

/-- Frees the entry of a record. -/
def State.freeEntry (s : State) (id : Nat) : State :=
  State.irqSync { s with xlt := { s.xlt with faults := s.xlt.faults.filter (fun f => !(f.inTable && decide (f.id = some id))) } }

/-- RETRY: every member walks again (R393). -/
def State.resolveRetry (s : State) (id : Nat) : State := match s.entryOf id with
  | none => s.setF Reg.xltStatResStale 1
  | some f => (overList f.members (fun m s => s.resumeWho m.tower m.who) s).freeEntry id

def execFqResolveRetry (id : Word) (s : State) : Out := .next (s.resolveRetry id.toNat)

/-- ABORT: the step of every member ends as a program error (R393). -/
def State.resolveAbort (s : State) (id : Nat) : State := match s.entryOf id with
  | none => s.setF Reg.xltStatResStale 1
  | some f => (overList f.members (fun m s => if m.tower < 128 then s.programError m.tower else s) s).freeEntry id

def execFqResolveAbort (id : Word) (s : State) : Out := .next (s.resolveAbort id.toNat)

/-- A write to `XLT_FQ_RESOLVE` by its ACTION. -/
def State.wrResolve (s : State) (v : Dword) : State :=
  if bit v 32 then s.resolveAbort (fld v 31 0) else s.resolveRetry (fld v 31 0)

/-- A write to `XLT_CTRL`: the queue is enabled only where its ring lies in the host memory window (R389). -/
def State.wrXltCtrl (s : State) (v grant : Dword) : State :=
  let was := s.fb Reg.xltCtrlFqEn
  let s := s.plainWrite Reg.xltCtrl v grant
  let s :=
    if s.fb Reg.xltCtrlFqEn && !was then
      if inWindow (s.f Reg.xltFqBaseAddr * 64) 0x40000 then (s.setF Reg.xltFqProdProd 0).setF Reg.xltFqConsCons 0
      else (s.setF Reg.xltCtrlFqEn 0).setF Reg.xltStatFqErr 1
    else if was && !s.fb Reg.xltCtrlFqEn then s.holdUnwritten
    else s
  s.irqSync

def execXltCtrl (v : Dword) (s : State) : Out := .next (s.wrXltCtrl v (-1))

/-- A write to a root: a table not wholly in device memory or the window leaves the register (R374). -/
def State.wrXltRoot (s : State) (n : Nat) (v grant : Dword) : State :=
  let s' := s.plainWrite (Reg.xltRoot n) v grant
  if s.inDevOrWin (s'.f (Reg.xltRootTable n) * 4096) 4096 then s' else s

def execXltRootn (n : Byte) (v : Dword) (s : State) : Out := .next (s.wrXltRoot n.toNat v (-1))

/-! Invalidation (R397–R400). -/

/-- A write to `XLT_INV_CTRL`: with GO it starts an invalidation or is rejected without effect (R397). -/
def State.wrInvCtrl (s : State) (v grant : Dword) : State :=
  let go := bit (v &&& grant) 0
  let s' := s.plainWrite Reg.xltInvCtrl v grant
  let k := s'.f Reg.xltInvCtrlLog2size
  if go && (s.fb Reg.xltInvCtrlGo || decide (k < 16) || decide (48 < k)
      || decide (s.f Reg.xltInvAddrAddr * 65536 % 2 ^ k ≠ 0)) then
    s.setF Reg.xltStatInvRej 1
  else if go then
    let inv : Inval := ⟨s'.fb Reg.xltInvCtrlAll, s'.f Reg.xltInvCtrlAsid, s.f Reg.xltInvAddrAddr * 65536, 2 ^ k⟩
    { s' with xlt := { s'.xlt with inv := some inv } }
  else s'

def execInvalidationGo (v : Dword) (s : State) : Out := .next (s.wrInvCtrl v (-1))

/-- Two ranges of addresses share one. -/
def meets (a n b m : Nat) : Bool := decide (a < b + m) && decide (b < a + n)

/-- A leaf, or a walk-cache entry, is in the scope of an invalidation. -/
def inScope (all : Bool) (asid base size a v lg : Nat) : Bool :=
  (all || decide (a = asid)) && meets (v * 2 ^ lg) (2 ^ lg) base size

/-- Removes what a range in scope holds from a Tower's structures (R397). -/
def Tower.invalidate (w : Tower) (all : Bool) (asid base size : Nat) : Tower :=
  let keep := fun (e : TlbEntry) => !inScope all asid base size e.asid e.vpn (pageLog e.level)
  { w with tlbs := w.tlbs.map (fun e => (e.1, e.2.filter keep)), l2 := w.l2.filter keep, l2keep := w.l2keep.filter keep,
           walkCache := w.walkCache.filter (fun e => !inScope all asid base size e.asid e.vpn (pageLog (e.level - 1))),
           walks := w.walks.filter (fun x => !inScope all asid base size x.asid (x.dva / 65536) 16) }

/-- Removes the translations of a range from every Tower. -/
def State.invalidate (s : State) (all : Bool) (asid base size : Nat) : State :=
  { s with towers := s.towers.map (fun e => (e.1, e.2.invalidate all asid base size)) }

/-- Some piece was resolved through a translation of the range. -/
def piecesIn (base size : Nat) (ps : List Piece) : Bool := ps.any (fun p => meets p.dva p.len base size)

/-- Accesses that a Tower has made through translations of a range and that are not complete: requests without an answer,
instructions in their data phase, buffered stores, the fill and the victim buffer (R398, R399). A slot's piece counts while
it has requests without an answer. -/
def Tower.usesRange (w : Tower) (base size : Nat) : Bool :=
  w.track.any (fun e => !e.done && decide (e.gone = none) && meets e.dva e.len base size)
    || w.plans.any (fun e => e.2.parts.any (fun p => piecesIn base size p.2)
        && (decide (e.1 < 4) || w.track.any (fun r => !r.done && decide (r.who = e.1))))
    || w.core.sbuf.any (fun e => piecesIn base size e.pieces)
    || (match w.core.fill with | some f => meets f.dva 64 base size | none => false)
    || (match w.core.victim with | some l => meets l.dva 64 base size | none => false)

/-- Requests without an answer of steps that have left the Tower (R398). -/
def Tower.leftRange (w : Tower) (all : Bool) (asid base size : Nat) : Bool :=
  w.track.any (fun e => !e.done && (match e.gone with | some a => all || decide (a = asid) | none => false) && meets e.dva e.len base size)

/-- A Tower in service has not acknowledged an invalidation (R398). -/
def State.invWaits (s : State) (all : Bool) (asid base size : Nat) : Bool :=
  (range 0 128).any (fun t => decide ((s.tw t).run ≠ .retired) && (((all || decide (s.asidOf t = asid)) && (s.tw t).usesRange base size)
      || (s.tw t).leftRange all asid base size))

/-- The slots of a Tower give up what they resolved through a range: pages translated ahead, and the piece under way, which is
translated again from its first byte not yet written (R399). -/
def State.slotsForget (s : State) (t base size : Nat) : State :=
  overList ((s.tw t).slots.map (·.1)) (fun k s =>
    let planned := (Tab.find (s.tw t).plans (4 + k)).any (fun p => p.parts.any (fun q => piecesIn base size q.2))
    (if planned then s.slotSettle t k else s).modSlot t k (fun l => if l.aheadStop then l else { l with ahead := none })) s

/-- A range's translations go from every Tower, with what slots of the space resolved through them (R397, R399, R403). -/
def State.forgetRange (s : State) (all : Bool) (asid base size : Nat) : State :=
  (overList ((range 0 128).filter (fun t => all || decide (s.asidOf t = asid))) (fun t s => s.slotsForget t base size) s).invalidate
    all asid base size

/-- Every Tower in service has acknowledged: the translations are gone, GO clears, DONE counts (R397, R398). -/
def execInvalidationComplete (s : State) : Out :=
  .next (match s.xlt.inv with
    | none => s
    | some v =>
      if s.invWaits v.all v.asid v.base v.size then s
      else
        let s := s.forgetRange v.all v.asid v.base v.size
        let s := { s with xlt := { s.xlt with inv := none } }
        let s := (s.setF Reg.xltInvCtrlGo 0).incF Reg.xltInvDoneDone 1
        if s.fb Reg.xltCtrlInvIe then s.irqLatch 3 else s)

/-! Prefetch and migration (R396, R401–R405). -/

/-- A write to a Tower's `XLT_PFREQ` while it holds a step: a PREFETCH record, or a drop if the queue is full (R396, R405;
log entry 32). -/
def State.wrPfreq (s : State) (t : Nat) (v : Dword) : State :=
  if (s.tw t).step.isNone then s
  else if s.fqNoRoom then s.satF (Reg.xltPfDropCount t) 1
  else
    let f : XFault := ⟨none, false, false, .prefetch, s.asidOf t, s.handleOf t, fld v 47 16 * 65536, 0, 0, 0,
      if bit v 0 then 2 else 1, 2 ^ t, 1, false, fld v 63 48, []⟩
    { s with xlt := { s.xlt with faults := s.xlt.faults ++ [f] } }

def execXltPfreq (t : TId) (v : Dword) (s : State) : Out := .next (s.wrPfreq t.toNat v)

/-- The leaf of a page in a space, as the Keep finds it: LPA of the entry, level, entry. -/
def State.leafAt (s : State) (asid dva : Nat) : Nat → Nat → Nat → Option (Nat × Nat × Dword)
  | 0, _, _ => none
  | fuel + 1, level, table =>
    let a := table + 8 * tableIdx level dva
    let pte : Dword := BitVec.ofNat 64 (leNat (s.peek a 8))
    if (decide (a < 0x100000000000) && s.unreadable a 8) || !bit pte 0 || s.badEntry level pte then none
    else if bit pte 1 then some (a, level, pte)
    else s.leafAt asid dva fuel (level + 1) (fld pte 44 8 * 256)

/-- The present leaf of a page. -/
def State.keepLeaf (s : State) (asid dva : Nat) : Option (Nat × Nat × Dword) :=
  let root := s.rd (Reg.xltRoot asid)
  if bit root 0 then s.leafAt asid dva 4 1 (fld root 44 12 * 4096) else none

/-- Writes a page-table entry. -/
def State.pokePte (s : State) (a : Nat) (pte : Dword) : State :=
  (s.keepWrite a (leBytes 8 pte.toNat) .ok).2

/-- Copies one granule of a page; what cannot be read is written poisoned, with free bytes in the window. The bytes of a
frame on another module, which only that module holds, are free (R364, R403; log entry 33). -/
def State.copyGranule (s : State) (src dst : Nat) : State :=
  let lpa := src % 2 ^ 45
  if src / 2 ^ 45 ≠ s.self then
    let (bs, s) := s.freeBytes 64
    (s.keepWrite dst bs .ok).2
  else
    let inMem := !inWindow lpa 64
    let s := if inMem && s.badIn lpa 64 then s.ueMet 128 lpa else s
    if !(inMem && s.unreadable lpa 64) then (s.keepWrite dst (s.peek lpa 64) .ok).2
    else
      let s := s.satF Reg.memPoisonCntCount 1
      if inWindow dst 64 then
        let (bs, s) := s.freeBytes 64
        (s.keepWrite dst bs .ok).2
      else { s with bad := Tab.set s.bad (dst / 64) .poisoned }

/-- The leaf of a page about to move is written with M = 1 (R403). -/
def State.markPage (s : State) (asid dva : Nat) : State := match s.keepLeaf asid dva with
  | none => s
  | some (a, _, pte) => s.pokePte a (setBit pte 6 true)

/-- The Keep moves the next page of the oldest MIGRATE: once no access through the old translation is incomplete it
invalidates it, copies the page and rewrites its leaf; after the last page that command's reply may be written (R402,
R403). -/
def execMigratePage (s : State) : Out :=
  .next (match s.xlt.migs with
    | [] => s
    | m :: rest => match m.frames with
      | [] => { s with xlt := { s.xlt with migs := rest } }
      | f :: fs =>
        let size := if m.big then 0x200000 else 0x10000
        if s.invWaits false m.asid m.dva size then s else
        let s := s.forgetRange false m.asid m.dva size
        let s := match s.keepLeaf m.asid m.dva with
          | none => s
          | some (a, level, pte) =>
            let old := leafFpa level pte (m.dva / size * size)
            let s := overList (range 0 (size / 64)) (fun i (s : State) => s.copyGranule (old + 64 * i) (f + 64 * i)) s
            s.pokePte a (setFld (setBit pte 6 false) 56 16 ((s.self * 2 ^ 45 + f) / 65536))
        let migs := if fs = [] then rest else { m with dva := m.dva + size, frames := fs } :: rest
        let s := { s with xlt := { s.xlt with migs := migs } }
        if fs ≠ [] then s.markPage m.asid (m.dva + size)
        else
          let rs := s.adm.replies.map (fun r => if r.waits = some m.serial then { r with waits := none } else r)
          { s with adm := { s.adm with replies := rs } })

end Sys2Proof.Machine
end

