-- ==== Sys2Proof/Machine/Admin.lean ====
section
/-! DEFINITION. Wennum packets: checks, replies, SMBus and the admin ring, and what each opcode does (R442–R457, R485,
R502, R524, R548–R557, R565). -/

namespace Sys2Proof.Machine

/-- The answer to a packet: status, the handle if not the echoed one, the 16 bytes of RESULT, result data and its
destination, and whether the reply waits for a MIGRATE. -/
structure Ans where
  status : Nat
  handle : Option Nat := none
  result : List Byte := []
  data : List Byte := []
  dest : Nat := 0
  waits : Option Nat := none
  opens : Option Nat := none
deriving DecidableEq, Repr

def fail (c : Nat) (s : State) : Ans × State := ({ status := c }, s)
def okay (s : State) : Ans × State := ({ status := 0 }, s)

/-- Parameter field of `n` bytes at packet offset `o`; bytes beyond LENGTH are zero (R443). -/
def par (w : Wennum) (o n : Nat) : Nat :=
  leNat ((range (o - 16) n).map (fun i => if i < w.length.toNat then w.params.extractLsb' (8 * i) 8 else 0))

/-! Checks that every packet meets (R443). -/

def opcodes : List Nat :=
  [0x01, 0x02, 0x03, 0x10, 0x11, 0x12, 0x13, 0x14, 0x15, 0x20, 0x21, 0x30, 0x40, 0x50, 0x51, 0x60, 0x61, 0x62, 0x63, 0x64, 0x65]
def smbusOps : List Nat := [0x01, 0x02, 0x03, 0x20, 0x30, 0x62]
def handleOps : List Nat := [0x11, 0x12, 0x13, 0x14, 0x15, 0x21]

/-- READY is up: the Keep serves. -/
def State.ready (s : State) : Bool := s.fb Reg.keepStatReady

/-- The channel that a handle names, if it is live (R453). -/
def State.liveHandle (s : State) (h : Nat) : Option Nat :=
  let c := s.chan (h % 16384)
  if c.live = true ∧ c.gen = h / 65536 then some (h % 16384) else none

/-- The status of the first check of R443 that fails before the opcode's own. -/
def State.packetCheck (s : State) (p : Path) (op : Nat) (w : Wennum) : Option Nat :=
  if !opcodes.contains op then some 0x101
  else if 48 < w.length.toNat ∨ 2 ≤ w.flags.toNat ∨ w.zero ≠ 0 ∨ w.handle.toNat / 16384 % 4 ≠ 0
      ∨ (p = .smbus ∧ w.handle ≠ 0) then some 0x102
  else if (p = .smbus ∧ !smbusOps.contains op) ∨ ((!s.ready ∨ s.boot.responder) ∧ op ≠ 1) then some 0x107
  else if handleOps.contains op ∧ (s.liveHandle w.handle.toNat).isNone then some 0x106
  else none

/-- The 32 bytes of a reply (R442). -/
def replyBytes (op : Nat) (w : Wennum) (x : Ans) (now : Nat) : List Byte :=
  leBytes 2 x.status ++ leBytes 2 op ++ leBytes 4 w.seq.toNat ++ leBytes 4 (x.handle.getD w.handle.toNat) ++ leBytes 4 now
    ++ padTo 16 x.result

/-- One packet is processed, and its reply stands in its path's place (R443–R448). -/
def State.packet (s : State) (p : Path) (op : Nat) (w : Wennum) (act : State → Ans × State) : State :=
  let (x, s) := match s.packetCheck p op w with
    | some c => fail c s
    | none => act s
  let bytes := replyBytes op w x s.now
  match p with
  | .ring =>
    let r : Reply := ⟨decide (w.flags.toNat % 2 = 1), bytes, x.data, x.dest, x.waits, x.opens⟩
    { s with adm := { s.adm with taken := s.adm.taken + 1, replies := s.adm.replies ++ [r] } }
  | .smbus => { s with smb := { pending := none, pendDue := 0, lastSeq := some w.seq, reply := bytes, data := x.data } }

/-- The Keeps stand at a boundary whose items 3 to 6 (R55) have changed no step, so that a packet still comes before them. -/
def State.atBoundary (s : State) : Bool := decide (s.f Reg.rollPhasePhase = 0) && s.roll.settled

/-- The SMBus target answers: with power, served by the ROM, the Keep or the responder, and not while EXTEST drives its pins (R551). -/
def State.smbUp (s : State) : Bool := s.boot.power && decide (s.boot.tap ≠ .extest) && (s.alive || s.boot.responder)

/-- A packet that comes by its own row: the ring is served from READY onward while it is enabled; SMBus by the ROM, the Keep
or the responder. The Keep takes it at a boundary; between boundaries it waits for the one that R53 gives (R52, R445, R448;
log entry 54). -/
def State.packetRow (s : State) (p : Path) (op : Nat) (w : Wennum) (act : State → Ans × State) : Out :=
  let served := match p with
    | .ring => s.alive && s.ready && s.fb Reg.keepAdmCtrlEn
    | .smbus => s.smbUp
  .next (if !served then s
    else match p with
      | .ring =>
        if s.atBoundary && decide (s.adm.rows = []) then s.packet p op w act
        else { s with adm := { s.adm with rows := s.adm.rows ++ [(s.stamp, op, w)] } }
      | .smbus =>
        if s.smb.pending.isSome ∨ s.smb.lastSeq = some w.seq then s
        else if s.atBoundary || !s.ready || s.boot.responder then s.packet p op w act
        else { s with smb := { s.smb with pending := some (BitVec.ofNat 16 op, w), pendDue := s.stamp } })

/-- A destination under R446: ignored over SMBus. -/
def State.destOk (s : State) (p : Path) (d n : Nat) : Bool := match p with
  | .smbus => true
  | .ring => decide (d % 64 = 0) && s.inDevOrWin d n

/-! Identity and status (R452, R524, R550–R554). -/

/-- The four ordering codes (R3), in ASCII. -/
def orderCode : List Byte :=
  let tail : List (List Byte) := [[0x51, 0x53], [0x51, 0x48], [0x50, 0x53], [0x50, 0x48]]
  [0x54, 0x46, 0x56, 0x31, 0x35, 0x33, 0x36, 0x2D] ++ (tail[Config.orderIndex.val]?).getD []

/-- The identity record (R550). -/
def State.identRecord (s : State) (bootState : Nat) : List Byte :=
  let order := padTo 16 orderCode
  let version := if s.boot.fw.isSome then s.boot.image.version.toNat else 0
  withCrc (order ++ padTo 16 Config.serial ++ [0x10] ++ ((order.drop 8).take 2) ++ leBytes 1 bootState ++ leBytes 4 0x11536A6D
    ++ leBytes 4 version ++ leBytes 2 (leAt s.boot.config 2 2 % 4096) ++ [0, 0] ++ leBytes 4 Config.mfgDate.toNat
    ++ leBytes 4 s.flash.svnMin)

/-- IDENT; the responder serves the record last served with BOOT_STATE 3 (R550, R551), and, since the record stays readable
while the module is stopped (R3), the record as it stands where none was served before (log entry 51). -/
def State.doIdent (p : Path) (w : Wennum) (s : State) : Ans × State :=
  let d := par w 0x10 8
  if s.destOk p d 64 = false then fail 0x103 s
  else if s.boot.responder then
    let old := if s.boot.identity = [] then s.identRecord 3 else s.boot.identity
    ({ status := 0, data := withCrc (old.take 0x23 ++ [3] ++ (old.take 60).drop 0x24), dest := d }, s)
  else
    let r := s.identRecord s.boot.state
    ({ status := 0, data := r, dest := d }, s.modBoot (fun b => { b with identity := r }))

/-- MOD_STATUS (R452). -/
def State.doModStatus (s : State) : Ans × State :=
  let flags := b2n s.ready + 2 * s.f Reg.rollStatAligned + 4 * s.f Reg.memStatDegraded
    + 8 * fld (s.readReg Reg.gwlStat) Reg.gwlStatDegraded.hi Reg.gwlStatDegraded.lo + 16 * s.f Reg.keepStatLeaderOnly
  let power := match s.roll.reports with | (_, r) :: _ => leAt r 0x16 2 | [] => 0
  ({ status := 0, result := leBytes 2 flags ++ leBytes 1 (s.f Reg.keepStatTowers) ++ [0] ++ leBytes 2 (s.f Reg.pwrCapInForce)
      ++ leBytes 2 power ++ leBytes 2 s.liveChans ++ [0, 0] ++ leBytes 4 (s.f Reg.memSizeSize / 65536) }, s)

/-- LOG_READ (R524). -/
def State.doLogRead (p : Path) (w : Wennum) (s : State) : Ans × State :=
  let first := par w 0x10 8
  let count := par w 0x18 2
  let d := par w 0x20 8
  if par w 0x1A 6 ≠ 0 then fail 0x102 s
  else if count = 0 ∨ (if p = .smbus then 3 else 4096) < count ∨ s.destOk p d (64 * count) = false then fail 0x103 s
  else
    let rs := (s.flash.log.filter (fun e => decide (first ≤ e.1))).take count
    let start := match rs with | e :: _ => e.1 | [] => s.flash.seq
    ({ status := 0, result := leBytes 8 start ++ leBytes 2 rs.length, data := rs.flatMap (·.2), dest := d }, s)

/-- ROLL_REPORT (R62, R452). -/
def State.doRollReport (p : Path) (w : Wennum) (s : State) : Ans × State :=
  let d := par w 0x18 8
  match s.roll.reports.find? (fun e => decide (e.1 = par w 0x10 8)) with
  | none => fail 0x103 s
  | some e => if s.destOk p d 64 = false then fail 0x103 s else ({ status := 0, data := e.2, dest := d }, s)

/-! Channels (R453–R457). -/

/-- Ranges of a channel: its rings and its save area. -/
def Channel.ranges (c : Channel) : List (Nat × Nat) :=
  [(c.sqBase, 128 * 2 ^ c.sqLog), (c.cqBase, 32 * 2 ^ c.cqLog)]
    ++ (if c.saveBase = 0 then [] else [(c.saveBase, 0x10000 + c.saveTowers * 0x180000)])

/-- Some two ranges of a list overlap. -/
def selfOverlap : List (Nat × Nat) → Bool
  | [] => false
  | r :: rs => rs.any (fun q => overlaps r.1 r.2 q.1 q.2) || selfOverlap rs

/-- A channel's ranges meet each other or those of another live channel. -/
def State.chanOverlap (s : State) (n : Option Nat) (c : Channel) : Bool :=
  selfOverlap c.ranges || s.chans.any (fun e => decide (e.2.state ≠ 0) && decide (n ≠ some e.1)
    && e.2.ranges.any (fun q => c.ranges.any (fun r => overlaps r.1 r.2 q.1 q.2)))

/-- Rings lie wholly in device memory or the window. -/
def State.ringsIn (s : State) (c : Channel) : Bool :=
  s.inDevOrWin c.sqBase (128 * 2 ^ c.sqLog) && s.inDevOrWin c.cqBase (32 * 2 ^ c.cqLog)

/-- The lowest window of `n` units free on both dies (R287, R454). -/
def State.freeWindow (s : State) (n : Nat) : Option Nat :=
  let used := s.chans.filter (fun e => decide (e.2.state ≠ 0))
  (range 0 (1025 - n)).find? (fun b => used.all (fun e => !overlaps b n e.2.bwinBase e.2.bwinLen))

/-- CHAN_CREATE (R453, R454). -/
def State.doChanCreate (w : Wennum) (s : State) : Ans × State :=
  let c : Channel :=
    { state := 1, sqBase := par w 0x10 8, cqBase := par w 0x18 8, saveBase := par w 0x20 8, sqLog := par w 0x28 1,
      cqLog := par w 0x29 1, asid := par w 0x2A 1, prio := par w 0x2B 1, weight := par w 0x2C 2, bwinLen := par w 0x2E 2,
      saveTowers := par w 0x30 1, irq := decide (par w 0x31 1 = 1) }
  if c.sqBase % 4096 ≠ 0 ∨ c.cqBase % 4096 ≠ 0 ∨ c.saveBase % 4096 ≠ 0 ∨ 8 ≤ c.prio ∨ 2 ≤ par w 0x31 1 then fail 0x102 s
  else if c.sqLog < 4 ∨ 12 < c.sqLog ∨ c.cqLog < 4 ∨ 12 < c.cqLog ∨ c.weight = 0 ∨ 1024 < c.weight ∨ 1024 < c.bwinLen
      ∨ 128 < c.saveTowers ∨ decide (c.saveBase = 0) ≠ decide (c.saveTowers = 0) ∨ s.ringsIn c = false
      ∨ (c.saveBase ≠ 0 ∧ s.inDevice c.saveBase (0x10000 + c.saveTowers * 0x180000) = false) then fail 0x103 s
  else match (range 0 16384).find? (fun n => decide ((s.chan n).state = 0) && decide ((s.chan n).gen < 0xFFFF)),
      s.freeWindow c.bwinLen with
    | some n, some b =>
      if s.chanOverlap none c then fail 0x109 s
      else
        let g := (s.chan n).gen + 1
        ({ status := 0, handle := some (g * 65536 + n), opens := some n }, s.setChan n { c with gen := g, bwinBase := b })
    | _, _ => fail 0x104 s

/-- A channel that takes no further descriptor has none waiting. -/
def State.dropBells (s : State) (n : Nat) : State :=
  { s with adm := { s.adm with bells := s.adm.bells.filter (fun e => decide (e.1 ≠ n)) } }

/-- CHAN_DESTROY (R456). -/
def State.doChanDestroy (w : Wennum) (s : State) : Ans × State :=
  let n := w.handle.toNat % 16384
  let c := s.chan n
  if s.stepsOf n ≠ [] ∨ c.heldC ≠ [] ∨ s.colls.any (fun e => e.2.bound && decide (e.2.chan = w.handle.toNat)) = true then
    fail 0x107 s
  else okay ((s.dropBells n).setChan n { gen := c.gen })

/-- CHAN_SET (R456). -/
def State.doChanSet (w : Wennum) (s : State) : Ans × State :=
  if 8 ≤ par w 0x10 1 ∨ par w 0x11 1 ≠ 0 then fail 0x102 s
  else if par w 0x12 2 = 0 ∨ 1024 < par w 0x12 2 then fail 0x103 s
  else okay (s.modChan (w.handle.toNat % 16384) (fun c => { c with prio := par w 0x10 1, weight := par w 0x12 2 }))

/-- CHAN_ABORT: every accepted step posts 0x0203 in order (R55, R456, R457). -/
def State.doChanAbort (w : Wennum) (ans : CqAnswers) (s : State) : Ans × State :=
  let n := w.handle.toNat % 16384
  let steps := s.stepsOf n
  let s := s.dropBells n
  let s := s.modChan n (fun c => if c.state = 3 then { c with abortPend := true } else { c with state := 2 })
  if steps.any (fun e => s.stepOut e.2) then
    okay (overList steps (fun e s => s.modStep (n * 65536 + e.1) (fun st => { st with fail := 0x203, due := 0 })) s)
  else okay (overList steps (fun e s => s.finish (n * 65536 + e.1) 0x203 ans) s)

/-- Writes the held completions in order; an error response holds the rest (R457). -/
def State.postHeld (s : State) (n : Nat) (ans : CqAnswers) : List Completion → State
  | [] => s
  | x :: xs =>
    let (ok, s) := s.postEntry n x (ans.of n (s.chan n).posted)
    if ok then s.postHeld n ans xs
    else (s.chanFault n).modChan n (fun c => { c with heldC := x :: xs })

/-- A channel with new rings, and the same channel once it leaves FAULTED. -/
def Channel.onRings (c : Channel) (sq cq : Nat) : Channel := { c with sqBase := sq, cqBase := cq }
def Channel.mended (c : Channel) : Channel := { c with state := if c.abortPend then 2 else 1, abortPend := false, heldC := [] }

/-- CHAN_RING (R457). -/
def State.doChanRing (w : Wennum) (ans : CqAnswers) (s : State) : Ans × State :=
  let n := w.handle.toNat % 16384
  let c := (s.chan n).onRings (par w 0x10 8) (par w 0x18 8)
  if c.sqBase % 4096 ≠ 0 ∨ c.cqBase % 4096 ≠ 0 then fail 0x102 s
  else if c.state ≠ 3 then fail 0x107 s
  else if s.ringsIn c = false then fail 0x103 s
  else if s.chanOverlap (some n) c then fail 0x109 s
  else
    let s := s.setChan n c.mended
    okay (s.postHeld n ans c.heldC)

/-- CHAN_QUERY (R456). -/
def State.doChanQuery (w : Wennum) (s : State) : Ans × State :=
  let n := w.handle.toNat % 16384
  let c := s.chan n
  let (head, used) := match s.headOf n with
    | some (_, st) => (b2n (decide (st.phase = .resident)) + 2 * b2n (decide (st.phase = .preempted)), st.used)
    | none => (0, 0)
  ({ status := 0, result := leBytes 1 c.state ++ leBytes 1 head ++ leBytes 1 used ++ leBytes 1 c.prio ++ leBytes 2 c.sqCons
      ++ leBytes 2 c.posted ++ leBytes 2 c.sqProd ++ leBytes 2 c.weight ++ leBytes 4 c.heldC.length }, s)

/-! Power (R450, R485, R502). -/

/-- CAP_SET (R450, R485). -/
def State.doCapSet (p : Path) (w : Wennum) (s : State) : Ans × State :=
  let cap := par w 0x10 2
  if par w 0x12 30 ≠ 0 then fail 0x102 s
  else if cap < 600 ∨ 1800 < cap then fail 0x103 s
  else
    let s := s.setF (if p = .smbus then Reg.pwrCapSmb else Reg.pwrCapDrv) cap
    let s := s.setF Reg.pwrCapInForce (min (s.f Reg.pwrCapSmb) (s.f Reg.pwrCapDrv))
    ({ status := 0, result := leBytes 2 (s.f Reg.pwrCapInForce) }, s)

/-- ENERGY_QUERY (R502). -/
def State.doEnergyQuery (w : Wennum) (s : State) : Ans × State :=
  let n := w.handle.toNat % 16384
  let c := s.chan n
  if 2 ≤ par w 0x10 48 then fail 0x102 s
  else
    ({ status := 0, result := leBytes 8 c.exactUj ++ leBytes 8 c.sharedUj },
      if par w 0x10 1 = 1 then s.setChan n { c with exactUj := 0, sharedUj := 0 } else s)

/-! Migration and collectives (R401, R402, R429). -/

/-- The sources of a MIGRATE, page by page; none where a page has no present leaf of the size with M = 0 (R401). -/
def State.migSources (s : State) (asid psz : Nat) : Nat → Nat → Option (List Nat)
  | 0, _ => some []
  | n + 1, dva => match s.keepLeaf asid dva with
    | none => none
    | some (_, level, pte) =>
      if level ≠ (if psz = 0x10000 then 4 else 3) ∨ bit pte 6 = true then none
      else (s.migSources asid psz n (dva + psz)).map (leafFpa level pte dva :: ·)

/-- MIGRATE (R401, R402). -/
def State.doMigrate (w : Wennum) (s : State) : Ans × State :=
  let dva := par w 0x10 8
  let asid := par w 0x18 1
  let psz := if par w 0x19 1 = 1 then 0x200000 else 0x10000
  let count := par w 0x1A 2 + 1
  let list := par w 0x20 8
  if dva % psz ≠ 0 ∨ par w 0x1C 4 ≠ 0 ∨ par w 0x28 24 ≠ 0 ∨ list % 8 ≠ 0 then fail 0x102 s
  else if s.inDevOrWin list (8 * count) = false then fail 0x103 s
  else match s.keepRead list (8 * count) with
    | (none, s) => fail 0x103 s
    | (some bs, s) =>
      let frames := (range 0 count).map (fun i => leAt bs (8 * i) 8)
      if frames.any (fun f => decide (f % psz ≠ 0)) then fail 0x102 s
      else if 2 ≤ par w 0x19 1 ∨ frames.any (fun f => !s.inDevOrWin f psz) then fail 0x103 s
      else if 4 ≤ (s.xlt.migs.filter (fun m => decide (m.frames ≠ []))).length then fail 0x105 s
      else match (if 2 ^ 48 < dva + psz * count then none else s.migSources asid psz count dva) with
        | none => fail 0x107 s
        | some src =>
          let dst := frames.map (fun f => s.self * 2 ^ 45 + f)
          if !decide dst.Nodup || dst.any src.contains then fail 0x109 s
          else
            let m : Migration := ⟨s.xlt.migSerial, asid, dva, decide (psz = 0x200000), frames⟩
            let s := { s with xlt := { s.xlt with migs := s.xlt.migs ++ [m], migSerial := m.serial + 1 } }
            ({ status := 0, waits := some m.serial }, s.markPage asid dva)

/-- A range lies in device memory or in one Tower store. -/
def State.inDevOrStore (s : State) (a n : Nat) : Bool :=
  s.inDevice a n || (match s.lpaPlace a with
    | .store t => decide (a + n ≤ storeBase t + 0x600000)
    | _ => false)

/-- Values of a binding within their ranges (R429). -/
def collValues (op cls localN m n : Nat) : Bool :=
  decide (1 ≤ localN) && decide (localN ≤ 128) && (match op with
    | 0 => decide (cls = 0) && decide (m = 0) && decide (n = 0)
    | 1 => (match laneClass cls with
      | some l => decide (1 ≤ m) && decide (m ≤ 256) && decide (1 ≤ n) && decide (n ≤ l.side) && decide (granulesOf cls m n ≤ 512)
      | none => false)
    | 2 | 3 => (decide (cls = 5) || decide (cls = 9)) && decide (1 ≤ m) && decide (m ≤ 4096) && decide (n = 0)
    | _ => false)

/-- COLL_BIND (R429). -/
def State.doCollBind (w : Wennum) (s : State) : Ans × State :=
  let slot := par w 0x10 2
  let old := s.coll slot
  let stride := par w 0x30 4
  let c : CollSlot :=
    { bound := true, op := par w 0x12 1, cls := par w 0x13 1, chan := par w 0x14 4, localN := par w 0x18 2, m := par w 0x1A 2,
      n := par w 0x1C 2, origin := par w 0x20 2, ext := par w 0x22 2, groupId := par w 0x24 4, src := par w 0x28 8,
      stride := stride, dst := par w 0x38 8, gen := old.gen, phase := old.phase, err := old.err }
  if par w 0x1E 2 ≠ 0 ∨ 0x1000 ≤ c.origin ∨ 0x1000 ≤ c.ext ∨ par w 0x34 4 ≠ 0 ∨ c.src % 64 ≠ 0 ∨ c.dst % 64 ≠ 0
      ∨ c.chan / 16384 % 4 ≠ 0 then fail 0x102 s
  else if 512 ≤ slot ∨ collValues c.op c.cls c.localN c.m c.n = false ∨ stride % 64 ≠ 0 ∨ c.groupId = 0
      ∨ (range 0 3).any (fun d => decide (s.ring d < c.extent d) || decide (s.ring d ≤ coord c.origin d)) = true
      ∨ s.inBox c s.self = false ∨ s.inDevOrStore c.src (128 * stride) = false ∨ s.inDevOrStore c.dst stride = false then
    fail 0x103 s
  else if (s.liveHandle c.chan).isNone then fail 0x106 s
  else if old.bound then fail 0x107 s
  else if overlaps c.dst stride c.src (128 * stride) then fail 0x109 s
  else okay (overList old.early (fun m s => s.collTakeUp m) (s.setColl slot c))

/-- COLL_UNBIND (R429). The slot's barrier bits and its count of generations stay (log entry 55). -/
def State.doCollUnbind (w : Wennum) (s : State) : Ans × State :=
  let slot := par w 0x10 2
  let c := s.coll slot
  if 512 ≤ slot then fail 0x103 s
  else if c.bound && (decide (c.arrived ≠ []) || decide (c.got ≠ [])) then fail 0x105 s
  else okay (if c.bound then s.setColl slot { gen := c.gen, phase := c.phase, err := c.err } else s)

/-! Firmware, attestation, memory layout, reset (R548, R549, R552–R557). -/

/-- A configuration record's ring sizes and coordinates meet R408. -/
def configFits (r : List Byte) : Bool :=
  let m := leAt r 2 2
  let src := leAt r 8 2
  let size := fun d => leAt r (4 + d) 1
  decide (m < 4096) && decide (src < 4096) && (range 0 3).all (fun d => decide (size d < 16)
    && decide (coord m d ≤ size d) && decide (coord src d ≤ size d))

/-- FW_STAGE (R548). -/
def State.doFwStage (w : Wennum) (s : State) : Ans × State :=
  let src := par w 0x10 8
  let len := par w 0x18 4
  let kind := par w 0x1C 1
  if src % 4096 ≠ 0 ∨ par w 0x1D 35 ≠ 0 then fail 0x102 s
  else if 2 ≤ kind ∨ (kind = 0 ∧ (len < 0x2000 ∨ 0x1000000 < len)) ∨ (kind = 1 ∧ len ≠ 64) ∨ s.inDevOrWin src len = false then
    fail 0x103 s
  else if s.boot.stage.isSome then fail 0x105 s
  else
    let (r, s) := s.keepRead src len
    if kind = 1 then
      match r with
      | none => fail 0x102 s
      | some bs =>
        if crcGood bs = false then fail 0x102 s
        else if configFits bs = false then fail 0x103 s
        else okay (s.flashPut (.config (bs.take 60)))
    else
      let st : Stage := ⟨src, len, match r with | none => 1 | some bs => imageCode bs s.flash.svnMin, r.getD []⟩
      okay ((s.modBoot (fun b => { b with stage := some st })).setF Reg.secStatStage 1)

/-- FW_STAGE ends: an image that verified is programmed into the inactive slot and read back (R548). -/
def execFwStageDone (flashOk : Bool) (s : State) : Out :=
  .next (match s.boot.stage with
    | none => s
    | some st =>
      let s := s.modBoot (fun b => { b with stage := none })
      if st.code ≠ 0 then (s.setF Reg.secStatStage 3).setF Reg.secStatStageCode st.code
      else
        let bytes := if flashOk then st.image else []
        let s := s.modFlash (fun f => f.setSlot (!f.active) bytes)
        if flashOk then
          let ver := leAt bytes 0 4
          (s.setF Reg.secStatStage 2).setF (if s.flash.active then Reg.secFwVerA else Reg.secFwVerB) ver
        else
          ((s.setF Reg.secStatStage 3).setF Reg.secStatStageCode 1).setF (if s.flash.active then Reg.secFwVerA else Reg.secFwVerB) 0)

/-- FW_ACTIVATE (R549). -/
def State.doFwActivate (s : State) : Ans × State :=
  let other := s.flash.slot (!s.flash.active)
  if s.boot.stage.isSome ∨ other.length < 0x2000 then fail 0x107 s
  else if s.f Reg.secStatStage = 3 then fail 0x108 s
  else okay (s.flashPut (.boot (!s.flash.active) true false))

/-- The signed part and signature of the attestation report (R553). -/
def State.reportBytes (s : State) (nonce : List Byte) : List Byte :=
  let body := padTo 0x200 (leBytes 2 1 ++ leBytes 2 0x400
    ++ leBytes 4 (b2n s.flash.active + 2 * s.f Reg.secStatReverted + 4 * s.f Reg.keepStatLeaderOnly) ++ leBytes 8 s.now
    ++ padTo 16 Config.serial ++ padTo 32 nonce ++ leBytes 4 s.flash.boots ++ leBytes 4 (s.f Reg.secSvnSvn)
    ++ leBytes 4 s.flash.svnMin ++ [0, 0, 0, 0] ++ padTo 64 Config.romHash ++ padTo 64 (sha512 (s.boot.image.head.take 0xA00))
    ++ padTo 64 (sha512 (withCrc s.boot.config)) ++ padTo 64 Config.keyId)
  body ++ padTo 512 (Config.identitySign body)

/-- Signing of the held report completes (R552). -/
def execAttestSigned (s : State) : Out :=
  .next (match s.boot.report with
    | some r => if r.signed then s
      else s.modBoot (fun b => { b with report := some ⟨r.nonce, true, s.reportBytes r.nonce⟩ })
    | none => s)

/-- An object of ATTEST is returned, whole on the ring and by chunks over SMBus (R552). -/
def State.attestObject (s : State) (p : Path) (obj : List Byte) (chunk d : Nat) : Ans × State :=
  let chunks := ceilDiv obj.length 128
  if p = .smbus ∧ chunks ≤ chunk then fail 0x103 s
  else if s.destOk p d obj.length = false then fail 0x103 s
  else ({ status := 0, result := leBytes 4 obj.length ++ leBytes 1 chunks, dest := d,
          data := if p = .smbus then (obj.drop (128 * chunk)).take 128 else obj }, s)

/-- ATTEST; where the object goes is checked before the held report changes (R443, R446, R552). -/
def State.doAttest (p : Path) (w : Wennum) (s : State) : Ans × State :=
  let nonce := leBytes 32 (par w 0x10 32)
  let kind := par w 0x30 1
  let chunk := par w 0x31 1
  let d := par w 0x38 8
  if par w 0x32 6 ≠ 0 ∨ (p = .ring ∧ chunk ≠ 0) then fail 0x102 s
  else if 2 ≤ kind then fail 0x103 s
  else if s.destOk p d (if kind = 1 then Config.certChain.length else 0x400) = false then fail 0x103 s
  else if kind = 1 then s.attestObject p Config.certChain chunk d
  else match s.boot.report.filter (fun r => decide (r.nonce = nonce)) with
    | some r => if r.signed then s.attestObject p r.bytes chunk d else fail 0x105 s
    | none =>
      if chunk ≠ 0 then fail 0x107 s
      else fail 0x105 (s.modBoot (fun b => { b with report := some ⟨nonce, false, []⟩ }))

/-- RELAYOUT (R555). -/
def State.doRelayout (w : Wennum) (s : State) : Ans × State :=
  if 2 ≤ par w 0x10 48 then fail 0x102 s
  else if s.fb Reg.memStatMigrating then fail 0x107 s
  else okay (s.flashPut (.relayout (decide (par w 0x10 1 = 0))))

/-- A part has a recorded retirement, or a recorded lane marking (R556). -/
def Flash.records (f : Flash) (part : Nat) : Bool :=
  f.retired.any (fun e => decide (e.1 = part))
    || (decide (part / 2 ^ 24 = 4) && (Tab.get 0 f.lanes (part % 2 ^ 24 / 8)).testBit (part % 8))

/-- UNRETIRE (R556). -/
def State.doUnretire (w : Wennum) (s : State) : Ans × State :=
  let part := par w 0x10 4
  let all := decide (par w 0x14 1 % 2 = 1)
  if !all && !(s.flashq.recs.foldl Flash.put s.flash).records part then fail 0x103 s
  else okay (s.flashPut (.unretire part all))

/-- RESET: the module reset begins once the reply is visible (R557). -/
def State.doReset (w : Wennum) (s : State) : Ans × State :=
  let b := par w 0x10 1
  if b / 16 % 8 ≠ 0 then fail 0x102 s
  else if b % 16 ≠ 0 then fail 0x103 s
  else if (s.boot.stage.isSome ∨ s.xlt.migs.any (fun m => decide (m.frames ≠ [])) = true) ∧ b < 128 then fail 0x107 s
  else okay (s.modBoot (fun x => { x with resetAfter := some s.adm.taken }))

/-! The rows of the opcodes. -/

def execIdent (p : Path) (w : Wennum) (s : State) : Out := s.packetRow p 0x01 w (State.doIdent p w)
def execModStatus (p : Path) (w : Wennum) (s : State) : Out := s.packetRow p 0x02 w State.doModStatus
def execLogRead (p : Path) (w : Wennum) (s : State) : Out := s.packetRow p 0x03 w (State.doLogRead p w)
def execChanCreate (p : Path) (w : Wennum) (s : State) : Out := s.packetRow p 0x10 w (State.doChanCreate w)
def execChanDestroy (p : Path) (w : Wennum) (s : State) : Out := s.packetRow p 0x11 w (State.doChanDestroy w)
def execChanQuery (p : Path) (w : Wennum) (s : State) : Out := s.packetRow p 0x15 w (State.doChanQuery w)
def execEnergyQuery (p : Path) (w : Wennum) (s : State) : Out := s.packetRow p 0x21 w (State.doEnergyQuery w)
def execRollReport (p : Path) (w : Wennum) (s : State) : Out := s.packetRow p 0x30 w (State.doRollReport p w)
def execMigrate (p : Path) (w : Wennum) (s : State) : Out := s.packetRow p 0x40 w (State.doMigrate w)
def execCollBind (p : Path) (w : Wennum) (s : State) : Out := s.packetRow p 0x50 w (State.doCollBind w)
def execCollUnbind (p : Path) (w : Wennum) (s : State) : Out := s.packetRow p 0x51 w (State.doCollUnbind w)
def execFwStage (p : Path) (w : Wennum) (s : State) : Out := s.packetRow p 0x60 w (State.doFwStage w)
def execFwActivate (p : Path) (w : Wennum) (s : State) : Out := s.packetRow p 0x61 w State.doFwActivate
def execAttest (p : Path) (w : Wennum) (s : State) : Out := s.packetRow p 0x62 w (State.doAttest p w)
def execRelayout (p : Path) (w : Wennum) (s : State) : Out := s.packetRow p 0x63 w (State.doRelayout w)
def execUnretire (p : Path) (w : Wennum) (s : State) : Out := s.packetRow p 0x64 w (State.doUnretire w)
def execReset (p : Path) (w : Wennum) (s : State) : Out := s.packetRow p 0x65 w (State.doReset w)

/-- What an opcode does; `ans` tells how the host die answers writes of completion entries at this boundary. -/
def State.act (p : Path) (op : Nat) (w : Wennum) (ans : CqAnswers) (s : State) : Ans × State :=
  if op = 0x01 then s.doIdent p w
  else if op = 0x02 then s.doModStatus
  else if op = 0x03 then s.doLogRead p w
  else if op = 0x10 then s.doChanCreate w
  else if op = 0x11 then s.doChanDestroy w
  else if op = 0x12 then s.doChanSet w
  else if op = 0x13 then s.doChanAbort w ans
  else if op = 0x14 then s.doChanRing w ans
  else if op = 0x15 then s.doChanQuery w
  else if op = 0x20 then s.doCapSet p w
  else if op = 0x21 then s.doEnergyQuery w
  else if op = 0x30 then s.doRollReport p w
  else if op = 0x40 then s.doMigrate w
  else if op = 0x50 then s.doCollBind w
  else if op = 0x51 then s.doCollUnbind w
  else if op = 0x60 then s.doFwStage w
  else if op = 0x61 then s.doFwActivate
  else if op = 0x62 then s.doAttest p w
  else if op = 0x63 then s.doRelayout w
  else if op = 0x64 then s.doUnretire w
  else s.doReset w

/-! The admin ring (R444, R445, R565). -/

/-- The handle of a channel whose creation is answered is live (R453). -/
def State.openChan (s : State) (r : Reply) : State := match r.opens with
  | some n => s.modChan n (fun c => { c with live := decide (c.state ≠ 0) })
  | none => s

/-- Replies that are not written: what their commands did stays, and a channel created is live, so that the query commands
can tell of it (R565; log entry 56). -/
def State.dropReplies (s : State) : State := overList s.adm.replies (fun r s => s.openChan r) s

/-- An error response stops the ring; a RESET whose reply is not written resets nothing (R557, R565). -/
def State.admStop (s : State) : State :=
  let s := (((s.setF Reg.keepAdmCtrlEn 0).setF Reg.keepStatAdmErr 1).keepIrqSet 0).dropReplies
  { s.modBoot (fun b => { b with resetAfter := none }) with adm := { s.adm with inputs := [], rows := [], replies := [] } }

/-- A packet as it lies in the ring (R442). -/
def packetAt (bs : List Byte) : Nat × Wennum :=
  let f := fun (o n : Nat) => leAt bs o n
  (f 0 2, ⟨BitVec.ofNat 16 (f 2 2), BitVec.ofNat 32 (f 4 4), BitVec.ofNat 32 (f 8 4), BitVec.ofNat 16 (f 12 2),
    BitVec.ofNat 16 (f 14 2), BitVec.ofNat 384 (f 16 48)⟩)

/-- Packets of the ring that R53 assigns to this boundary: the last producer value whose boundary has come. -/
def State.admDue (s : State) : Nat :=
  let got := (s.adm.inputs.filter (fun e => decide (e.2 ≤ s.roll.rc))).getLast?
  match got with
  | some e => (e.1 + 2 ^ 32 - s.adm.taken % 2 ^ 32) % 2 ^ 32
  | none => 0

/-- Takes up to `n` packets in ring order; `reads` tells how the host die answers reads of packets in the window, by the packets' numbers
(R445, R565). -/
def State.takeRing (s : State) (ans : CqAnswers) (reads : List (Nat × Resp)) : Nat → State
  | 0 => s
  | n + 1 =>
    let size := 2 ^ s.f Reg.keepAdmCtrlLog2n
    let resp := (Tab.find reads s.adm.taken).getD .ok
    match s.keepReadAns (fld (s.rd Reg.keepAdmBase) 44 6 * 64 + s.adm.taken % size * 64) 64 resp with
    | (none, s) => s.admStop
    | (some bs, s) =>
      let x := packetAt bs
      (s.packet .ring x.1 x.2 (State.act .ring x.1 x.2 ans)).takeRing ans reads n

/-- Takes ring packets that came by their own rows and whose boundary has come: how many are left of `n` (R445). -/
def State.takeRows (s : State) (ans : CqAnswers) : Nat → List (Nat × Nat × Wennum) → Nat × State
  | n, [] => (n, s)
  | 0, l => (0, { s with adm := { s.adm with rows := l } })
  | n + 1, (due, op, w) :: l =>
    if due ≤ s.roll.rc then (s.packet .ring op w (State.act .ring op w ans)).takeRows ans n l
    else (n + 1, { s with adm := { s.adm with rows := (due, op, w) :: l } })

/-- The packets of a boundary: the pending SMBus packet, then at most 256 of the ring (R445). -/
def State.takePackets (s : State) (ans : CqAnswers) (reads : List (Nat × Resp)) : State :=
  let s := match s.smb.pending with
    | some (op, w) =>
      if s.smb.pendDue ≤ s.roll.rc then s.packet .smbus op.toNat w (State.act .smbus op.toNat w ans) else s
    | none => s
  let (left, s) := { s with adm := { s.adm with rows := [] } }.takeRows ans 256 s.adm.rows
  let n := min left s.admDue
  if s.fb Reg.keepAdmCtrlEn = false ∨ n = 0 ∨ 2 ^ 31 ≤ s.admDue then s else s.takeRing ans reads n

/-- A write to `KEEP_ADM_PROD`: beyond the ring's size it is ignored (R444). -/
def State.admProdWrite (s : State) (v : Dword) : State :=
  let n := fld v 31 0
  if 2 ^ s.f Reg.keepAdmCtrlLog2n < (n + 2 ^ 32 - s.f Reg.keepAdmDoneDone) % 2 ^ 32 then s.setF Reg.keepStatAdmOvf 1
  else
    let s := s.setF Reg.keepAdmProdProd n
    if s.fb Reg.keepAdmCtrlEn then { s with adm := { s.adm with inputs := s.adm.inputs ++ [(n, s.stamp)] } } else s

def execKeepAdmProd (v : Dword) (s : State) : Out := .next (s.admProdWrite v)

/-- A write to `KEEP_ADM_CTRL` (R476). -/
def State.admCtrlWrite (s : State) (v : Dword) : State :=
  let n := fld v 5 1
  let on := s.fb Reg.keepAdmCtrlEn
  let s := if !on && decide (4 ≤ n) && decide (n ≤ 12) then s.setF Reg.keepAdmCtrlLog2n n else s
  if bit v 0 = false then s.setF Reg.keepAdmCtrlEn 0
  else if on then s
  else
    let s := (((s.setF Reg.keepAdmCtrlEn 1).setF Reg.keepAdmProdProd 0).setF Reg.keepAdmDoneDone 0).dropReplies
    { s.modBoot (fun b => { b with resetAfter := none }) with adm := { bells := s.adm.bells } }

def execKeepAdmCtrl (v : Dword) (s : State) : Out := .next (s.admCtrlWrite v)

/-- A reply is visible: it is counted, and signalled where its packet asks; after the reply to RESET the module reset begins,
with every pending record programmed (R444, R453, R543, R557). -/
def State.replied (s : State) (r : Reply) (rs : List Reply) : State :=
  let done := s.f Reg.keepAdmDoneDone
  let s := { s with adm := { s.adm with replies := rs } }
  let s := (s.incF Reg.keepAdmDoneDone 1).openChan r
  let s := if r.irq then s.keepIrqSet 0 else s
  if s.boot.resetAfter.map (· % 2 ^ 32) = some done then s.programAll.moduleReset 2 else s

/-- Writes a reply, its result data first: whether an error response came (R446, R565). -/
def State.writeReply (s : State) (r : Reply) (resp : ReplyAns) : Bool × State :=
  let (e, s) := if r.data = [] then (false, s) else s.keepWrite r.dest r.data resp.result
  if e then (true, s)
  else
    let slot := s.f Reg.keepAdmDoneDone % 2 ^ s.f Reg.keepAdmCtrlLog2n
    s.keepWrite (fld (s.rd Reg.keepAdmRbase) 44 5 * 32 + slot * 32) r.bytes resp.reply

/-- ADMIN_REPLY_WRITE: the next reply in ring order; an error response stops the ring (R444, R446, R565). -/
def execAdminReplyWrite (resp : ReplyAns) (s : State) : Out :=
  .next (match s.adm.replies with
    | [] => s
    | r :: rs =>
      if r.waits.isSome ∨ s.alive = false ∨ s.fb Reg.keepAdmCtrlEn = false then s
      else
        let (e, s) := s.writeReply r resp
        if e then s.admStop else s.replied r rs)

/-- A write to `KEEP_CFG`: fields out of range stay; it takes effect at the boundary of R53 (R476). -/
def State.keepCfgWrite (s : State) (v : Dword) : State :=
  let s := if fld v 39 32 = 0 then s else s.setF Reg.keepCfgSlice (fld v 39 32)
  let s := s.setF Reg.keepCfgReexecMax (fld v 26 24)
  let s := if 1 ≤ fld v 10 0 ∧ fld v 10 0 ≤ 1024 then s.setF Reg.keepCfgXferMax (fld v 10 0) else s
  { s with roll := { s.roll with keepCfgDue := s.stampAfter s.roll.keepCfgDue } }

def execKeepCfg (v : Dword) (s : State) : Out := .next (s.keepCfgWrite v)

/-! SMBus (R447–R449). -/

def State.smbAck (s : State) (ack : Bool) (bytes : List Byte) : State := { s with out := { s.out with smb := some (ack, bytes) } }

/-- A transaction is acknowledged: to the module's address, with this command code and a right packet error code (R447, R530). -/
def State.smbHears (s : State) (x : SmbFrame) (code : Byte) : Bool :=
  s.smbUp && decide (x.addr.toNat = 0x58 + s.boot.straps) && decide (x.code = code) && x.pecOk

/-- PACKET (R447, R448). -/
def execSmbusPacket (op : Half) (w : Wennum) (x : SmbFrame) (s : State) : Out :=
  .next (if s.smbHears x 0xC0 = false then s.smbAck false []
    else
      let s := s.smbAck true []
      if s.smb.pending.isSome ∨ s.smb.lastSeq = some w.seq then s
      else { s with smb := { s.smb with pending := some (op, w), pendDue := s.stamp } })

/-- REPLY; while a packet is pending, with its SEQ and HANDLE, and ROLL as the roll counter stands (R442, R447–R449; log entry 121). -/
def execSmbusReply (x : SmbFrame) (s : State) : Out :=
  .next (if s.smbHears x 0xC1 = false then s.smbAck false []
    else match s.smb.pending with
      | some (_, w) => s.smbAck true (replyBytes 0 w { status := 0x105 } s.now)
      | none => s.smbAck true (padTo 32 s.smb.reply))

/-- DATA (R447, R448). -/
def execSmbusData (x : SmbFrame) (s : State) : Out :=
  .next (if s.smbHears x 0xC2 = false then s.smbAck false []
    else s.smbAck true (if s.smb.pending.isSome ∨ s.smb.data = [] then [0] else s.smb.data))

/-- Before READY, and while the responder serves, the ROM, the firmware or the responder answers the pending packet
within 1 ms of its transaction (R449, R551). -/
def execSmbusPacketAnswered (s : State) : Out :=
  .next (match s.smb.pending with
    | some (op, w) =>
      if s.smbUp && (!s.ready || s.boot.responder) then s.packet .smbus op.toNat w (State.act .smbus op.toNat w []) else s
    | none => s)

end Sys2Proof.Machine
end

