-- ==== Sys2Proof/Machine/EngIssue.lean ====
section
/-! DEFINITION. The engine instructions, one meaning each: the core pushes the instruction into its engine's queue, and
the engine executes it in queue order (R24, R265, R278, R291). What each does there is in Dome.lean, Spire.lean,
Turret.lean, Tiles.lean, Vector.lean and Streams.lean. -/

namespace Sys2Proof.Machine

/-- `dm.cfg` (R119, R121, R140). -/
def execDmCfg (t : TId) (is : Issue) (d : R3) (cls : R3) (m n : Byte) (s : State) : Out :=
  pushOp t is .dom (.dmCfg t is d cls m n) true [] [] 0 s

/-- `dm.free` (R140). -/
def execDmFree (t : TId) (is : Issue) (d : R3) (s : State) : Out :=
  pushOp t is .dom (.dmFree t is d) true [] [] 0 s

/-- `dm.clr` (R122, R140). -/
def execDmClr (t : TId) (is : Issue) (d : R3) (s : State) : Out :=
  pushOp t is .dom (.dmClr t is d) true [] [] 0 s

/-- `dm.ld` (R123–R125, R141). -/
def execDmLd (t : TId) (is : Issue) (d sg : R3) (a : GReg) (fmt : Fmt) (rm : Rm) (src : Bool) (tile : R3) (s : State) : Out :=
  pushOp t is .dom (.dmLd t is d sg a fmt rm src tile) (decide (fmtCode fmt < 6)) [sg] [a] 0 s

/-- `dm.ldadd` (R123–R125, R141). -/
def execDmLdadd (t : TId) (is : Issue) (d sg : R3) (a : GReg) (fmt : Fmt) (rm : Rm) (src : Bool) (tile : R3) (s : State) : Out :=
  pushOp t is .dom (.dmLdadd t is d sg a fmt rm src tile) (decide (fmtCode fmt < 6)) [sg] [a] 0 s

/-- `dm.drain` (R128–R131, R142). -/
def execDmDrain (t : TId) (is : Issue) (d sg : R3) (gd gc : GReg) (s : State) : Out :=
  pushOp t is .dom (.dmDrain t is d sg gd gc) true [sg] [gd, gc] 0 s

/-- `dm.xout` (R134). -/
def execDmXout (t : TId) (is : Issue) (d sg : R3) (a : GReg) (s : State) : Out :=
  pushOp t is .dom (.dmXout t is d sg a) true [sg] [a] 0 s

/-- `dm.xadd` (R135). -/
def execDmXadd (t : TId) (is : Issue) (d sg : R3) (a : GReg) (s : State) : Out :=
  pushOp t is .dom (.dmXadd t is d sg a) true [sg] [a] 0 s

/-- `sp.cfg` (R162). -/
def execSpCfg (t : TId) (is : Issue) (cc : GReg) (s : State) : Out :=
  pushOp t is .spr (.spCfg t is cc) true [] [cc] 0 s

/-- `sp.lds` (R150). -/
def execSpLds (t : TId) (is : Issue) (ts : R3) (k n : BitVec 7) (s : State) : Out :=
  pushOp t is .spr (.spLds t is ts k n) true [] [] 0 s

/-- `sp.ldsm` (R150, R164). -/
def execSpLdsm (t : TId) (is : Issue) (sg : R3) (a d : GReg) (s : State) : Out :=
  pushOp t is .spr (.spLdsm t is sg a d) true [sg] [a, d] 0 s

/-- `sp.mm` (R146). -/
def execSpMm (t : TId) (is : Issue) (d ts : R3) (r : GReg) (swap : Bool) (s : State) : Out :=
  pushOp t is .spr (.spMm t is d ts r swap) true [] [r] 0 s

/-- `sp.drop` (R165). -/
def execSpDrop (t : TId) (is : Issue) (s : State) : Out :=
  pushOp t is .spr (.spDrop t is) true [] [] 0 s

/-- `tu.ptr` (R177, R197). -/
def execTuPtr (t : TId) (is : Issue) (p : BitVec 2) (tile : Bool) (sg : R3) (a : GReg) (fmt : Fmt) (s : State) : Out :=
  pushOp t is .tur (.tuPtr t is p tile sg a fmt) (decide (fmtCode fmt < 10) && (!tile || decide (a = 0)) && (decide (p ≠ 3) || (!tile && decide (fmtCode fmt = 0)))) [sg] [a] 0 s

/-- `tu.prog` (R172, R176, R197). -/
def execTuProg (t : TId) (is : Issue) (slot : GReg) (sg : R3) (a : GReg) (s : State) : Out :=
  pushOp t is .tur (.tuProg t is slot sg a) (decide (slot ≠ 0)) [sg] [a] 0 s

/-- `tu.run` (R177–R180, R197). -/
def execTuRun (t : TId) (is : Issue) (slot : GReg) (count : Half) (hist : Bool) (s : State) : Out :=
  pushOp t is .tur (.tuRun t is slot count hist) (decide (count ≠ 0)) [] [] 0 s

/-- `tld` (R215). -/
def execTld (t : TId) (is : Issue) (d sg : R3) (a r : GReg) (s : State) : Out :=
  pushOp t is .tile (.tld t is d sg a r) true [sg] [a, r] 0 s

/-- `tst` (R215). -/
def execTst (t : TId) (is : Issue) (sg : R3) (a : GReg) (tt : R3) (r : GReg) (s : State) : Out :=
  pushOp t is .tile (.tst t is sg a tt r) true [sg] [a, r] 0 s

/-- `tmv` (R213). -/
def execTmv (t : TId) (is : Issue) (d ts : R3) (r : GReg) (s : State) : Out :=
  pushOp t is .tile (.tmv t is d ts r) true [] [r] 0 s

/-- `tmv.vt` (R214). -/
def execTmvVt (t : TId) (is : Issue) (d : R3) (v : GReg) (h : Bool) (s : State) : Out :=
  pushOp t is .tile (.tmvVt t is d v h) true [] [] 0 s

/-- `tmv.tv` (R214). -/
def execTmvTv (t : TId) (is : Issue) (v : GReg) (ts : R3) (h : Bool) (s : State) : Out :=
  pushOp t is .tile (.tmvTv t is v ts h) true [] [] 0 s

/-- `tclr` (R219). -/
def execTclr (t : TId) (is : Issue) (d : R3) (s : State) : Out :=
  pushOp t is .tile (.tclr t is d) true [] [] 0 s

/-- `vadd` (R237–R239). -/
def execVadd (t : TId) (is : Issue) (o : VArith) (s : State) : Out :=
  pushOp t is .vec (.vadd t is o) true [] [o.b] o.b s

/-- `vsub` (R237–R239). -/
def execVsub (t : TId) (is : Issue) (o : VArith) (s : State) : Out :=
  pushOp t is .vec (.vsub t is o) true [] [o.b] o.b s

/-- `vmul` (R237–R239). -/
def execVmul (t : TId) (is : Issue) (o : VArith) (s : State) : Out :=
  pushOp t is .vec (.vmul t is o) true [] [o.b] o.b s

/-- `vdiv` (R237). -/
def execVdiv (t : TId) (is : Issue) (o : VArith) (s : State) : Out :=
  pushOp t is .vec (.vdiv t is o) true [] [o.b] o.b s

/-- `vsqrt` (R237, R256). -/
def execVsqrt (t : TId) (is : Issue) (o : VArith) (s : State) : Out :=
  pushOp t is .vec (.vsqrt t is o) (decide (o.b = 0)) [] [o.b] o.b s

/-- `vmin` (R95). -/
def execVmin (t : TId) (is : Issue) (o : VArith) (s : State) : Out :=
  pushOp t is .vec (.vmin t is o) true [] [o.b] o.b s

/-- `vmax` (R95). -/
def execVmax (t : TId) (is : Issue) (o : VArith) (s : State) : Out :=
  pushOp t is .vec (.vmax t is o) true [] [o.b] o.b s

/-- `vfma` (R237, R256). -/
def execVfma (t : TId) (is : Issue) (o : VArith) (s : State) : Out :=
  pushOp t is .vec (.vfma t is o) true [] [o.b] o.b s

/-- `vfms` (R237, R256). -/
def execVfms (t : TId) (is : Issue) (o : VArith) (s : State) : Out :=
  pushOp t is .vec (.vfms t is o) true [] [o.b] o.b s

/-- `vabs` (R238). -/
def execVabs (t : TId) (is : Issue) (o : VArith) (s : State) : Out :=
  pushOp t is .vec (.vabs t is o) true [] [o.b] o.b s

/-- `vneg` (R238). -/
def execVneg (t : TId) (is : Issue) (o : VArith) (s : State) : Out :=
  pushOp t is .vec (.vneg t is o) true [] [o.b] o.b s

/-- `vand` (R256). -/
def execVand (t : TId) (is : Issue) (o : VArith) (s : State) : Out :=
  pushOp t is .vec (.vand t is o) true [] [o.b] o.b s

/-- `vor` (R256). -/
def execVor (t : TId) (is : Issue) (o : VArith) (s : State) : Out :=
  pushOp t is .vec (.vor t is o) true [] [o.b] o.b s

/-- `vxor` (R256). -/
def execVxor (t : TId) (is : Issue) (o : VArith) (s : State) : Out :=
  pushOp t is .vec (.vxor t is o) true [] [o.b] o.b s

/-- `vsll` (R238). -/
def execVsll (t : TId) (is : Issue) (o : VArith) (s : State) : Out :=
  pushOp t is .vec (.vsll t is o) true [] [o.b] o.b s

/-- `vsrl` (R238). -/
def execVsrl (t : TId) (is : Issue) (o : VArith) (s : State) : Out :=
  pushOp t is .vec (.vsrl t is o) true [] [o.b] o.b s

/-- `vsra` (R238). -/
def execVsra (t : TId) (is : Issue) (o : VArith) (s : State) : Out :=
  pushOp t is .vec (.vsra t is o) true [] [o.b] o.b s

/-- `vmv` (R256). -/
def execVmv (t : TId) (is : Issue) (o : VArith) (s : State) : Out :=
  pushOp t is .vec (.vmv t is o) true [] [o.b] o.b s

/-- `vmerge` (R234). -/
def execVmerge (t : TId) (is : Issue) (o : VArith) (s : State) : Out :=
  pushOp t is .vec (.vmerge t is o) true [] [o.b] o.b s

/-- `vcmul` (R242). -/
def execVcmul (t : TId) (is : Issue) (o : VArith) (s : State) : Out :=
  pushOp t is .vec (.vcmul t is o) true [] [o.b] o.b s

/-- `vcmac` (R242). -/
def execVcmac (t : TId) (is : Issue) (o : VArith) (s : State) : Out :=
  pushOp t is .vec (.vcmac t is o) true [] [o.b] o.b s

/-- `vconj` (R242). -/
def execVconj (t : TId) (is : Issue) (o : VArith) (s : State) : Out :=
  pushOp t is .vec (.vconj t is o) true [] [o.b] o.b s

/-- `vredsum` (R240). -/
def execVredsum (t : TId) (is : Issue) (o : VArith) (s : State) : Out :=
  pushOp t is .vec (.vredsum t is o) true [] [o.b] o.b s

/-- `vredmax` (R240). -/
def execVredmax (t : TId) (is : Issue) (o : VArith) (s : State) : Out :=
  pushOp t is .vec (.vredmax t is o) true [] [o.b] o.b s

/-- `vredmin` (R240). -/
def execVredmin (t : TId) (is : Issue) (o : VArith) (s : State) : Out :=
  pushOp t is .vec (.vredmin t is o) true [] [o.b] o.b s

/-- `vcmpeq` (R233). -/
def execVcmpeq (t : TId) (is : Issue) (o : VArith) (s : State) : Out :=
  pushOp t is .vec (.vcmpeq t is o) (decide (o.d.toNat < 8)) [] [o.b] o.b s

/-- `vcmplt` (R233). -/
def execVcmplt (t : TId) (is : Issue) (o : VArith) (s : State) : Out :=
  pushOp t is .vec (.vcmplt t is o) (decide (o.d.toNat < 8)) [] [o.b] o.b s

/-- `vcmple` (R233). -/
def execVcmple (t : TId) (is : Issue) (o : VArith) (s : State) : Out :=
  pushOp t is .vec (.vcmple t is o) (decide (o.d.toNat < 8)) [] [o.b] o.b s

/-- `vcmpun` (R233). -/
def execVcmpun (t : TId) (is : Issue) (o : VArith) (s : State) : Out :=
  pushOp t is .vec (.vcmpun t is o) (decide (o.d.toNat < 8)) [] [o.b] o.b s

/-- `vwmul` (R243). -/
def execVwmul (t : TId) (is : Issue) (o : VArith) (s : State) : Out :=
  pushOp t is .vec (.vwmul t is o) true [] [o.b] o.b s

/-- `vwmacc` (R243). -/
def execVwmacc (t : TId) (is : Issue) (o : VArith) (s : State) : Out :=
  pushOp t is .vec (.vwmacc t is o) true [] [o.b] o.b s

/-- `vwdot` (R244). -/
def execVwdot (t : TId) (is : Issue) (o : VArith) (s : State) : Out :=
  pushOp t is .vec (.vwdot t is o) true [] [o.b] o.b s

/-- `vcvt` (R241). -/
def execVcvt (t : TId) (is : Issue) (d a : GReg) (fmt : Fmt) (rm : Rm) (m : Bool) (k : R3) (s : State) : Out :=
  pushOp t is .vec (.vcvt t is d a fmt rm m k) true [] [] 0 s

/-- `vld` (R245, R246). -/
def execVld (t : TId) (is : Issue) (o : VMem) (s : State) : Out :=
  pushOp t is .vec (.vld t is o) true [o.s] [o.a, o.b] 0 s

/-- `vlds` (R245, R246). -/
def execVlds (t : TId) (is : Issue) (o : VMem) (s : State) : Out :=
  pushOp t is .vec (.vlds t is o) true [o.s] [o.a, o.b] 0 s

/-- `vldx` (R245, R246). -/
def execVldx (t : TId) (is : Issue) (o : VMem) (s : State) : Out :=
  pushOp t is .vec (.vldx t is o) true [o.s] [o.a, o.b] 0 s

/-- `vst` (R245, R246). -/
def execVst (t : TId) (is : Issue) (o : VMem) (s : State) : Out :=
  pushOp t is .vec (.vst t is o) true [o.s] [o.a, o.b] 0 s

/-- `vsts` (R245, R246). -/
def execVsts (t : TId) (is : Issue) (o : VMem) (s : State) : Out :=
  pushOp t is .vec (.vsts t is o) true [o.s] [o.a, o.b] 0 s

/-- `vstx` (R245, R246). -/
def execVstx (t : TId) (is : Issue) (o : VMem) (s : State) : Out :=
  pushOp t is .vec (.vstx t is o) true [o.s] [o.a, o.b] 0 s

/-- `vprobe` (R253). -/
def execVprobe (t : TId) (is : Issue) (form : VForm) (o : VMem) (s : State) : Out :=
  pushOp t is .vec (.vprobe t is form o) (decide (o.v.toNat < 8)) [o.s] [o.a, o.b] 0 s

/-- `vmand` (R233). -/
def execVmand (t : TId) (is : Issue) (d a b : R3) (s : State) : Out :=
  pushOp t is .vec (.vmand t is d a b) true [] [] 0 s

/-- `vmor` (R233). -/
def execVmor (t : TId) (is : Issue) (d a b : R3) (s : State) : Out :=
  pushOp t is .vec (.vmor t is d a b) true [] [] 0 s

/-- `vmxor` (R233). -/
def execVmxor (t : TId) (is : Issue) (d a b : R3) (s : State) : Out :=
  pushOp t is .vec (.vmxor t is d a b) true [] [] 0 s

/-- `vmnot` (R233). -/
def execVmnot (t : TId) (is : Issue) (d a : R3) (s : State) : Out :=
  pushOp t is .vec (.vmnot t is d a) true [] [] 0 s

/-- `vrel` (R228). -/
def execVrel (t : TId) (is : Issue) (a : GReg) (s : State) : Out :=
  pushOp t is .vec (.vrel t is a) true [] [] 0 s

/-- `st.copy` (R341). -/
def execStCopy (t : TId) (is : Issue) (k : BitVec 4) (sd : R3) (gd : GReg) (ss : R3) (gs : GReg) (s : State) : Out :=
  pushOp t is .str (.stCopy t is k sd gd ss gs) true [sd, ss] [gd, gs] 0 s

/-- `st.shp` (R340). -/
def execStShp (t : TId) (is : Issue) (k : BitVec 4) (p q : GReg) (s : State) : Out :=
  pushOp t is .str (.stShp t is k p q) true [] [p, q] 0 s

/-- `st.fill` (R341). -/
def execStFill (t : TId) (is : Issue) (k : BitVec 4) (sd : R3) (gd gv : GReg) (s : State) : Out :=
  pushOp t is .str (.stFill t is k sd gd gv) true [sd] [gd, gv] 0 s

/-- `st.sig` (R346). -/
def execStSig (t : TId) (is : Issue) (k : BitVec 4) (a : GReg) (off : BitVec 11) (s : State) : Out :=
  pushOp t is .str (.stSig t is k a off) true [] [a] 0 s

end Sys2Proof.Machine
end

