-- ==== Sys2Proof/Machine/Points.lean ====
section
/-! DEFINITION. Operating points, ceilings, the cap floor and throttle reasons (R477–R496, R503). -/

namespace Sys2Proof.Machine

/-! Asks and ceilings (R481, R482). -/

/-- Asked operating point and rank of a phase hint (R481). -/
def hintOp (h : Nat) : Nat := ([7, 7, 7, 4, 7, 2, 0][h]?).getD 7
def hintRank (h : Nat) : Nat := ([3, 5, 4, 2, 6, 1, 0][h]?).getD 0

/-- A region's ask: operating point, priority, rank (R482). -/
structure Ask where
  op : Nat
  prio : Nat
  rank : Nat
deriving DecidableEq, Repr

/-- What a Tower's step asks for, where the Tower is neither free, nor held, nor idle after `done`. -/
def State.towerAsk (s : State) (t : Nat) : Option Ask :=
  if (s.tw t).run = .done ∨ (s.tw t).held = true then none
  else (s.stepOf t).map (fun e => ⟨hintOp (e.2.hint % 16), (s.chan (e.1 / 65536)).prio, hintRank (e.2.hint % 16)⟩)

def Ask.join (a b : Ask) : Ask := ⟨max a.op b.op, max a.prio b.prio, max a.rank b.rank⟩

/-- The ask of a region (R482). -/
def State.regionAsk (s : State) (r : Nat) : Option Ask :=
  ((towersIn r).filterMap s.towerAsk).foldl (fun (acc : Option Ask) a =>
    some (match acc with | some b => a.join b | none => a)) none

def State.thermCeil (s : State) (r : Nat) : Nat := 7 - Tab.get 0 s.pwr.thermDrop r

/-- The ceiling of a region (R482). -/
def State.ceilOf (s : State) (r : Nat) : Nat :=
  min (s.f (Reg.pwrRegionMarginMax r)) (min (s.thermCeil r) s.pwr.ext)

/-! The procedure of R483, on lists of 32 operating points. -/

def opAt (ops : List Nat) (r : Nat) : Nat := (ops[r]?).getD 0
def neighbours (r : Nat) : List Nat := (range 0 32).filter (adjacent r)

/-- Raises regions to three below a neighbour, each neighbour for whose sake the ceiling allows it. -/
def raisePass (ceil ops : List Nat) : List Nat :=
  (range 0 32).map (fun r => (neighbours r).foldl (fun m g =>
    if opAt ops g - 3 ≤ opAt ceil r then max m (opAt ops g - 3) else m) (opAt ops r))

/-- Lowers regions to three above a neighbour. -/
def lowerPass (ops : List Nat) : List Nat :=
  (range 0 32).map (fun r => (neighbours r).foldl (fun m g => min m (opAt ops g + 3)) (opAt ops r))

/-- Three passes reach every region: operating points span 7 (R479). -/
def lowerAdjacency (ops : List Nat) : List Nat := lowerPass (lowerPass (lowerPass ops))
def raiseAdjacency (ceil ops : List Nat) : List Nat := raisePass ceil (raisePass ceil (raisePass ceil ops))

/-- Regions are raised as ceilings allow, else their neighbours are lowered; then no region stands higher than its want or those of its
neighbours make it (R480, R483). -/
def enforceAdjacency (ceil ops : List Nat) : List Nat :=
  let tops := lowerAdjacency (raiseAdjacency ceil ops)
  raiseAdjacency ceil ((range 0 32).map (fun r => min (opAt ops r) (opAt tops r)))

/-- Place of a region in the lowering order: no ask first, then priority, rank, highest operating point, highest number. -/
def lowerKey (ask : Option Ask) (op r : Nat) : Nat :=
  let head := match ask with | none => 0 | some a => 1 + a.prio * 8 + a.rank
  (head * 8 + (7 - op)) * 32 + (31 - r)

/-- Operating points, and the regions lowered for the cap and for current. -/
structure Points where
  ops : List Nat
  capLow : List Nat := []
  curLow : List Nat := []
deriving DecidableEq, Repr

/-- Lowers regions until power, the host die's draw `host` included, and current fit (R483, R527). -/
def lowerLoop (roll cap host : Nat) (asks : List (Option Ask)) : Nat → Points → Points
  | 0, p => p
  | fuel + 1, p =>
    let excess := decide (cap < Config.predictedPower roll p.ops false + host)
    let hot := (range 0 2).any (fun d => decide (760 < Config.predictedCurrent roll p.ops d))
    if !excess && !hot then p
    else
      let can := (range 0 32).filter (fun r => decide (0 < opAt p.ops r))
      match (sortBy (fun r : Nat => lowerKey ((asks[r]?).getD none) (opAt p.ops r) r) can).head? with
      | none => p
      | some g =>
        let ops := lowerAdjacency ((range 0 32).map (fun r => if r = g then opAt p.ops r - 1 else opAt p.ops r))
        let fell := (range 0 32).filter (fun r => decide (opAt ops r < opAt p.ops r))
        lowerLoop roll cap host asks fuel
          { ops := ops, capLow := if excess then p.capLow ++ fell else p.capLow, curLow := if hot then p.curLow ++ fell else p.curLow }

/-- No Tower is held. -/
def State.unheld (s : State) : State :=
  overList (range 0 128) (fun t s => if (s.tw t).held then s.modTw t (fun w => { w with held := false }) else s) s

/-- OPERATING_POINT_SELECTION: the points of the module's regions as its state stands (R483). -/
def State.choosePoints (s : State) : Points :=
  let asks := (range 0 32).map s.regionAsk
  let ceil := (range 0 32).map s.ceilOf
  let want := (range 0 32).map (fun r => match s.regionAsk r with | some a => min a.op (s.ceilOf r) | none => 0)
  lowerLoop s.now (s.f Reg.pwrCapInForce) s.pwr.hostPower asks 256 { ops := enforceAdjacency ceil want }

/-! Held rolls at the cap floor (R486, R487). -/

/-- CAP_FLOOR_PLAN: the number of active rolls in eight. -/
def planK (pa ph cap : Nat) : Nat :=
  (((range 1 8).filter (fun k : Nat => decide (8 * (ph : Int) + (k : Int) * ((pa : Int) - (ph : Int)) ≤ 8 * (cap : Int)))).getLast?).getD 1

/-- A pattern of `k` active rolls in eight, as even as can be: roll `i` of it. -/
def activeRoll (k i : Nat) : Bool := decide (ceilDiv ((i % 8 + 1) * k) 8 = ceilDiv (i % 8 * k) 8 + 1)

/-- Steps that are active in each roll of the pattern, for a list of offsets. -/
def activeCounts (k : Nat) (offs : List Nat) : List Nat :=
  (range 0 8).map (fun i => (offs.filter (fun o => activeRoll k (i + o))).length)

/-- By how much the active counts of rolls differ. -/
def spreadGap (k : Nat) (offs : List Nat) : Nat :=
  let l := activeCounts k offs
  l.foldl max 0 - l.foldl min offs.length

/-- Choices of `n` offsets from `lo` to 7, in ascending order. -/
def offsetLists : Nat → Nat → List (List Nat)
  | 0, _ => [[]]
  | n + 1, lo => (range lo (8 - lo)).flatMap (fun o => (offsetLists n o).map (o :: ·))

/-- Offsets of `n` steps beside those given, such that the counts differ by as little as possible. Eight steps with eight offsets are
active alike in every roll. -/
def bestOffsets (k : Nat) (offs : List Nat) (n : Nat) : List Nat :=
  let full := if spreadGap k offs = 0 then n / 8 else 0
  let best := (offsetLists (n - 8 * full) 0).foldl (fun (b : Option (List Nat)) l => match b with
    | none => some l
    | some x => if spreadGap k (offs ++ l) < spreadGap k (offs ++ x) then some l else b) none
  best.getD [] ++ (range 0 full).flatMap (fun _ => range 0 8)

/-- Resident steps, by key. -/
def State.residents (s : State) : List (Nat × StepSt) := s.steps.filter (fun e => decide (e.2.phase = .resident))

/-- Offsets of the resident steps under a plan: all anew at an onset, else those of the steps just placed. -/
def State.spread (s : State) (k : Nat) (anew : Bool) : State :=
  let rs := s.residents
  let keeps := fun (e : Nat × StepSt) => !anew && decide (e.2.stay ≠ 0)
  let new := rs.filter (fun e => !keeps e)
  let offs := bestOffsets k ((rs.filter keeps).map (fun e => e.2.offset)) new.length
  overList (new.zip offs) (fun e s => s.modStep e.1.1 (fun st => { st with offset := e.2 })) s

/-- The Towers of a step are held in this roll; never one that saves or restores a context (R487). -/
def State.holdStep (s : State) (st : StepSt) : State :=
  if st.towers.any (fun t => decide ((s.tw t).run ∈ [.restoring, .restored, .saving])) then s
  else overList st.towers (fun t s => s.modTw t (fun w => { w with held := true })) s

/-- The held-roll plan is in force from this boundary on, or ends (R486). -/
def State.planHeld (s : State) (floor : Bool) : State :=
  if !floor then s.modPwr (fun p => { p with plan := none })
  else
    let zero := List.replicate 32 0
    let host := s.pwr.hostPower
    let k := planK (Config.predictedPower s.now zero false + host) (Config.predictedPower s.now zero true + host)
      (s.f Reg.pwrCapInForce)
    let (onset, anew) := match s.pwr.plan with
      | some (k', o) => if k' = k then (o, false) else (s.roll.passed, true)
      | none => (s.roll.passed, true)
    let s := (s.modPwr (fun p => { p with plan := some (k, onset) })).spread k anew
    overList s.residents (fun e s => if activeRoll k (s.roll.passed - onset + e.2.offset) then s else s.holdStep e.2) s

/-! Thermal and external ceilings (R489–R491, R494). -/

def State.tempOf (s : State) (r : Nat) : Nat := s.f (Reg.pwrRegionTemp r)

/-- THERMAL_CEILING_UPDATE of one region (R489, R490). -/
def State.thermRegion (s : State) (r : Nat) : State :=
  let t := s.tempOf r
  let drop := Tab.get 0 s.pwr.thermDrop r
  let quiet := Tab.get 0 s.pwr.quiet r
  let hotCond := decide (100 ≤ t) || (neighbours r).any (fun g => decide (s.tempOf g + 20 < t))
  let (drop, quiet) :=
    if s.pwr.hot.contains r then (7, 0)
    else if hotCond then (min 7 (drop + 1), 0)
    else if 7 ≤ quiet ∧ t < 97 ∧ 0 < drop then (drop - 1, 0)
    else (drop, min 8 (quiet + 1))
  s.modPwr (fun p => { p with thermDrop := Tab.set p.thermDrop r drop, quiet := Tab.set p.quiet r quiet })

/-- The guard and the alert at a boundary, after the sample: a die whose regions read below 103 °C is gated no more, nor are
the Towers once PWR_ALERT# is released (R490, R494). Hardware does this, whether or not the decisions come in time. -/
def State.regate (s : State) : State :=
  let level := s.fb Reg.pwrStatAlert
  let s := s.modPwr (fun p =>
    { p with hot := p.hot.filter (fun r => decide (103 ≤ s.tempOf r)), alertGate := level, alertGated := level })
  let dies := (range 0 2).filter s.pwr.gated
  let gates : Tab Nat := dies.map (fun d => (d, 0))
  (s.modPwr (fun p => { p with gateFrom := gates })).setF Reg.pwrStatGated (b2n (decide (dies ≠ [])))

/-- Ceilings at a boundary (R489–R491, R494). -/
def State.ceilings (s : State) : State :=
  let rc := s.roll.rc
  let s := s.modPwr (fun p =>
    let due := (p.limitDue.filter (fun e => decide (e.2 ≤ rc))).map (·.1)
    { p with limitDue := p.limitDue.filter (fun e => decide (rc < e.2)),
             limited := (due.foldl (fun l d => addOne d l) p.limited).filter (fun d => decide (95 ≤ Tab.get 0 p.devTemp d)) })
  let s := overList (range 0 32) (fun r s => s.thermRegion r) s
  let level := s.fb Reg.pwrStatAlert
  s.modPwr (fun p =>
    let ext := if p.alertRoll then p.ext - 2 else if 15 ≤ p.extQuiet then min 7 (p.ext + 1) else p.ext
    let quiet := if p.alertRoll ∨ 15 ≤ p.extQuiet then 0 else p.extQuiet + 1
    { p with ext := ext, extQuiet := quiet, alertRoll := level })

/-! Item 5 of R55. -/

/-- Reasons that the choice of points gives a roll (R503). -/
def State.pointReasons (s : State) (p : Points) : Nat :=
  let below := fun (f : Nat → Ask → Bool) => (range 0 32).any (fun r => match s.regionAsk r with
    | some a => f r a
    | none => false)
  let lowBy := fun (l : List Nat) => below (fun r a => decide (opAt p.ops r < a.op) && l.contains r)
  let byCeil := fun (c : Nat → Nat) => below (fun r a => decide (c r < a.op) && decide (c r = s.ceilOf r))
  b2n (lowBy p.capLow) + 2 * b2n s.pwr.plan.isSome + 4 * b2n (byCeil s.thermCeil) + 8 * b2n (lowBy p.curLow)
    + 32 * b2n (below (fun r a => decide (s.f (Reg.pwrRegionMarginMax r) < a.op))) + 64 * b2n (byCeil (fun _ => s.pwr.ext))

/-- Puts the points into the registers. -/
def State.putPoints (s : State) (p : Points) : State :=
  overList (range 0 32) (fun r s =>
    let held := bitsOf 4 (fun i => match (towersIn r)[i]? with | some t => (s.tw t).held | none => false)
    let ask := match s.regionAsk r with | some a => a.op | none => 0
    (((s.setF (Reg.pwrRegionOp r) (opAt p.ops r)).setF (Reg.pwrRegionAsk r) ask).setF (Reg.pwrRegionCeil r) (s.ceilOf r)).setF
      (Reg.pwrRegionHeld r) held) s

/-- A Tower that runs a step does so below the step's ask, or is held (R65, R496). -/
def State.slowTower (s : State) (t : Nat) : Bool :=
  (s.tw t).held || (match s.towerAsk t with
    | some a => decide (s.f (Reg.pwrRegionOp (regionOf t)) < a.op)
    | none => false)

/-- Operating points and held Towers of the roll that begins (R483–R487, R503). -/
def State.setPoints (s : State) : State :=
  let s := s.unheld
  let p := s.choosePoints
  let atFloor := (range 0 32).all (fun r => (s.regionAsk r).isNone || decide (opAt p.ops r = 0))
  let floor := atFloor && decide (s.f Reg.pwrCapInForce < Config.predictedPower s.now p.ops false + s.pwr.hostPower)
  let s := s.planHeld floor
  let s := s.setF Reg.pwrStatFloor (b2n floor)
  let s := s.putPoints p
  s.modPwr (fun x => { x with reasons := s.pointReasons p, asked := (range 0 32).filter (fun r => (s.regionAsk r).isSome) })

end Sys2Proof.Machine
end

