-- ==== Sys2Proof/Machine/Sched.lean ====
section
/-! DEFINITION. Scheduling at a boundary: the waiting set, victims, placement (R464, R465, R469–R472). -/

namespace Sys2Proof.Machine

/-- Values of `KEEP_CFG` in force. -/
def State.slice (s : State) : Nat := fld s.roll.keepCfg Reg.keepCfgSlice.hi Reg.keepCfgSlice.lo
def State.xferMax (s : State) : Nat := fld s.roll.keepCfg Reg.keepCfgXferMax.hi Reg.keepCfgXferMax.lo * 2 ^ 20

/-- Channels whose head step's acceptance this boundary counts (R53, R458). -/
def State.headed (s : State) : List Nat :=
  (s.chans.map (·.1)).filter (fun n => (s.headOf n).any (fun e => decide (e.2.due ≤ s.roll.rc)))

/-- A channel that gains a head step takes the smallest service count of its priority (R469). -/
def State.raiseService (s : State) : State :=
  let have_ := s.headed
  let base := s.chans
  overList (s.chans.map (·.1)) (fun n s =>
    let c := s.chan n
    if have_.contains n then
      if c.headed then s
      else
        let others := have_.filterMap (fun m =>
          let d := Tab.get ({} : Channel) base m
          if m ≠ n ∧ d.prio = c.prio then some d.service else none)
        let least := match others with | [] => c.service | x :: xs => xs.foldl min x
        s.setChan n { c with headed := true, service := max c.service least }
    else if c.headed then s.setChan n { c with headed := false } else s) s

/-- The waiting set W: head steps that are not resident, as channel and submission index (R469). A step whose reserved
Towers wait for it goes first. -/
def State.waiting (s : State) : List (Nat × Nat × StepSt) :=
  let heads := (s.chans.map (·.1)).filterMap (fun n => (s.headOf n).map (fun e => (n, e.1, e.2)))
  let w := heads.filter (fun e => decide (e.2.2.phase ≠ .resident) && decide (e.2.2.fail = 0) && decide (e.2.2.due ≤ s.roll.rc)
    && decide (e.2.2.towers = []))
  let byIdx := sortBy (fun e : Nat × Nat × StepSt => e.1) w
  let byS := sortBy (fun e : Nat × Nat × StepSt => (s.chan e.1).service) byIdx
  let byPrio := sortBy (fun e : Nat × Nat × StepSt => 7 - (s.chan e.1).prio) byS
  sortBy (fun e : Nat × Nat × StepSt => if e.2.2.reserved = [] then 1 else 0) byPrio

/-- Towers that the step may take now: free, on a die that the Keeps direct, and reserved for no other (R465). -/
def State.freeFor (s : State) (k : Nat) (both : Bool) : List Nat :=
  let taken := s.steps.flatMap (fun e => if e.1 = k then [] else e.2.reserved)
  (range 0 128).filter (fun t => decide ((s.tw t).run = .free) && (both || decide (t < 64)) && !taken.contains t)

/-- Towers that a step needs: its ranks not yet idle after `done`, or its saved contexts. -/
def StepSt.width (st : StepSt) : Nat := if st.phase = .preempted then st.saved.length else st.need

/-- A choice among free Towers: the named ones, or reserved ones first and then the Keep's own choice (R465). -/
def State.pickTowers (s : State) (st : StepSt) (free : List Nat) : Option (List Nat) :=
  if st.place then (if st.named.all free.contains then some st.named else none)
  else
    let mine := st.reserved.filter free.contains
    let rest := sortBy (fun t : Nat => Config.placeRank s.now t) (free.filter (fun t => !mine.contains t))
    let l := (mine ++ rest).take st.width
    if l.length = st.width then some l else none

/-- Places a step on Towers: a restore for a preempted one, else a dispatch. -/
def State.placeStep (s : State) (k : Nat) (st : StepSt) (ts : List Nat) : State :=
  if st.phase = .preempted then s.restore k ts else s.dispatch k ts

/-- Tc to rc, in a roll of `perRoll` tc (R477). -/
def tcRc (perRoll tc : Nat) : Nat := ceilDiv (tc * 1024) perRoll

/-- Latency of the path between two Towers in units of 10 ps: 1.54 ns for each hop of the mesh, and across the bridge, for which R29
gives the longest path alone, that one (R29). -/
def pathLatency (t u : Nat) : Nat :=
  if t / 64 = u / 64 then
    154 * ((max (t / 8) (u / 8) - min (t / 8) (u / 8)) + (max (t % 8) (u % 8) - min (t % 8) (u % 8)))
  else 4900

/-- Completion time in rc that is counted for a request of Tower `t` to a place (R351, R472). -/
def State.placeRc (s : State) (t perRoll fpa : Nat) : Nat := match s.place fpa with
  | .hostWin => 100 * s.f Reg.hstCtrlTimeout
  | .remote _ => 100 * s.f Reg.gwlCtrlTimeout
  | .device => 400
  | .store u => tcRc perRoll 10 + ceilDiv (2 * pathLatency t u) 1000
  | _ => 0

/-- Tc within which an engine's instruction in progress ends (R165, R196, R218, R255, R472). -/
def Eng.bound : Eng → Nat
  | .vec => 536
  | .spr => 141
  | .dom => 2200
  | .tur => 6400
  | .tile => 140
  | .str => 0

/-- The instruction under way at a requester still issues requests when its step is preempted: a Dome instruction, a tile row, a vector
store or scatter in its data phase. Loads of the vector unit and stream slots issue no more (R255, R348, R472). -/
def Tower.goesOn (w : Tower) (who : Nat) : Bool :=
  who == 2 || who == 3 || (who == 1 && w.vecStoring)

/-- Rc that the work in progress of a Tower may still take in a roll of `perRoll` tc (R472): the largest of its bounds. -/
def State.quiesceRc (s : State) (t perRoll : Nat) : Nat :=
  let w := s.tw t
  let works := (allEngines.filter (fun e => w.begun.contains e.num && decide (w.stop e = .running))).map (fun e => tcRc perRoll e.bound)
  let asked := (w.track.filter (fun e => !e.done && decide (e.gone = none))).map (fun e => s.placeRc t perRoll e.fpa)
  let left := (w.plans.filter (fun e => w.goesOn e.1)).map (fun e =>
    let ps := (e.2.parts.flatMap (·.2)).filter (fun p => decide (s.place p.fpa ≠ .store t))
    if ps = [] then 0
    else tcRc perRoll (ps.length - Tab.get 0 w.gates e.1) + (ps.map (fun p => s.placeRc t perRoll p.fpa)).foldl max 0)
  (works ++ asked ++ left).foldl max 0

/-- A step's saves fit in the roll that begins, at the operating points `ops`: the largest bound of its Towers, and each Tower's
context at 256 bytes per tc (R471, R472; log entry 40). -/
def State.saveFits (s : State) (ops : List Nat) (st : StepSt) : Bool :=
  let per := fun (t : Nat) => tcOf (opAt ops (regionOf t))
  let q := (st.towers.map (fun t => s.quiesceRc t (per t))).foldl max 0
  decide (q ≤ 1024) && st.towers.all (fun t => decide (ceilDiv (s.contextBytes t) 256 * 1024 ≤ (1024 - q) * per t))

/-- Resident steps that may be victims for a waiting step, in the order of R470; none that is placed at this boundary, since
preemptions come before dispatches (R55). -/
def State.victimOrder (s : State) (n : Nat) (st : StepSt) : List (Nat × StepSt) :=
  let c := s.chan n
  let ok := fun (e : Nat × StepSt) =>
    let v := s.chan (e.1 / 65536)
    decide (v.saveBase ≠ 0) && !s.complete e.2 && !e.2.struck && !e.2.progErr && decide (e.2.fail = 0) && decide (e.2.stay ≠ 0)
      && (decide (v.prio < c.prio) || (decide (v.prio = c.prio) && decide (s.slice ≤ e.2.stay) && decide (c.service < v.service)))
      && !e.2.towers.any (fun t => decide ((s.tw t).run ∈ [.restoring, .restored]))
      && (!st.place || e.2.towers.any st.named.contains)
  let l := s.residents.filter ok
  let byIdx := sortBy (fun e : Nat × StepSt => 16384 - e.1 / 65536) l
  let top := (l.map (fun e => (s.chan (e.1 / 65536)).service)).foldl max 0
  let byS := sortBy (fun e : Nat × StepSt => top - (s.chan (e.1 / 65536)).service) byIdx
  sortBy (fun e : Nat × StepSt => (s.chan (e.1 / 65536)).prio) byS

/-- Enough Towers for the step. -/
def StepSt.enough (st : StepSt) (ts : List Nat) : Bool :=
  if st.place then st.named.all ts.contains else decide (st.width ≤ ts.length)

/-- Victims, taken in order until the step has enough Towers (R470). -/
def takeVictims (st : StepSt) (free : List Nat) : List (Nat × StepSt) → Option (List (Nat × StepSt))
  | [] => if st.enough free then some [] else none
  | v :: vs => if st.enough free then some [] else (takeVictims st (free ++ v.2.towers) vs).map (v :: ·)

/-- The first waiting step that finds too few free Towers: victims are preempted if their saves fit, and Towers are
reserved for the step at the next boundary (R469–R471). Nothing that item 5 goes by changes after this, so that it sets the points at
which the saves are judged. `both`: the Keeps direct both dies. -/
def State.preemptFor (s : State) (n k : Nat) (st : StepSt) (both : Bool) (room : Nat) : State :=
  let free := s.freeFor k both
  let order := (s.victimOrder n st).filter (fun e => both || e.2.towers.all (fun t => decide (t < 64)))
  match takeVictims st free order with
  | none => s
  | some vs =>
    let ts := vs.flatMap (fun v => v.2.towers)
    let bytes := (vs.map (fun v => s.saveBytes v.2)).foldl (· + ·) 0 + (st.saved.map (·.bytes)).foldl (· + ·) 0
    let after := overList vs (fun v s => s.preempt v.1) s
    let ops := after.unheld.choosePoints.ops
    if vs = [] ∨ room < bytes ∨ vs.all (fun v => s.saveFits ops v.2) = false then s
    else
      let keep := if st.place then st.named else (ts ++ free).take st.width
      after.modStep k (fun st => { st with reserved := keep })

/-- Bytes of a step's saved contexts. -/
def StepSt.savedBytes (st : StepSt) : Nat := (st.saved.map (·.bytes)).foldl (· + ·) 0

/-- Items 4 and 6 of R55: the waiting steps in order, up to the first that cannot be placed (R469). `room` is what the saves
and restores begun here leave (R471, R474). -/
def State.placeAll (s : State) (both : Bool) (room : Nat) : List (Nat × Nat × StepSt) → State
  | [] => s
  | (n, i, st) :: rest =>
    let k := n * 65536 + i
    match s.pickTowers st (s.freeFor k both) with
    | some ts => (s.placeStep k st ts).placeAll both (room - st.savedBytes) rest
    | none => s.preemptFor n k st both room

def State.schedule (s : State) (both : Bool) : State :=
  let s := s.raiseService
  s.placeAll both s.xferMax s.waiting

end Sys2Proof.Machine
end

