-- ==== Sys2Proof/Machine/Time.lean ====
section
/-! DEFINITION. Aligning rolls: roll frames, fabric exchanges, acquisition and holdover, and the report ring
(R40–R50, R66–R69, R440). -/

namespace Sys2Proof.Machine

def State.modRoll (s : State) (f : RollSt → RollSt) : State := { s with roll := f s.roll }

/-- This module is the roll source, by the value of `ROLL_CFG` in force (R42, R68). -/
def State.source (s : State) : Bool := bit s.roll.cfg 0

/-- The conditions of R40 are met: recent frames came 1,024 rc apart. -/
def State.frequencyOk (s : State) : Bool := s.roll.gaps.all (fun b => b)

/-- ALIGNED follows the conditions of R46; without frames on ROLL_IN a module whose parent has not replied for 64 rolls is
not aligned (R50). A roll source reads 1. -/
def State.realign (s : State) : State :=
  if s.source then s
  else
    let ok := s.roll.near && s.roll.agree && s.frequencyOk && !(s.roll.parentLost && !s.fb Reg.rollStatInLock)
    (s.setF Reg.rollStatAligned (b2n ok)).modRoll (fun r => { r with everAligned := r.everAligned || ok })

/-- ROLL_JUMP: the current roll is lengthened so that the next boundary falls `d` rc after its nominal place, and takes
the number adopted (R48). A move that is already under way is not started again. -/
def State.jump (s : State) (d number : Nat) : State :=
  let len := 1024 + d
  if (len = 1024 ∧ number = s.now + 1) ∨ len ≤ s.f Reg.rollPhasePhase ∨ (s.roll.len = len ∧ s.roll.adopt = some number) then s
  else
    let s := s.modRoll (fun r => { r with len := len, adopt := some number })
    (s.setF Reg.rollStatJump 1).event 0x40 0 (leBytes 8 s.now ++ leBytes 8 number)

/-- `n` bits of a number, least significant first. -/
def bitsLow (n v : Nat) : List Bool := (List.range n).map v.testBit

/-- The line in rc 0 to 95 of a roll frame (R41). -/
def rollFrameBits (hop roll : Nat) : List Bool :=
  [true, true, true, true, false, false, false, false] ++ bitsLow 8 hop ++ bitsLow 64 roll ++ bitsLow 16 (crc16 hop roll)

/-- A frame leaves on ROLL_OUT, `at'` rc after the boundary or the received marker (R41, R42). -/
def State.sendRoll (s : State) (at' hop roll : Nat) : State :=
  { s with out := { s.out with roll := s.out.roll ++ [(at', rollFrameBits hop roll)] } }

/-- A frame arrives on ROLL_IN (R40–R43, R46, R48, R50). The first valid one moves the boundary and the number. -/
def execRollFrame (f : RollFrame) (s : State) : Out :=
  let h := f.hop.toNat
  .next (if s.source then s
    else if f.crc.toNat ≠ crc16 h f.roll.toNat then s.setF Reg.rollStatCrcErr 1
    else if 63 ≤ h then s
    else
      let gaps := if s.fb Reg.rollStatInLock then (s.roll.gaps ++ [decide (f.gap = 1024)]) else []
      let gaps := gaps.drop (gaps.length - 15)
      let s := s.modRoll (fun r => { r with gaps := gaps, everLock := true })
      let s := if gaps.length = 15 ∧ s.frequencyOk = false then s.setF Reg.rollStatFreqErr 1 else s
      let s := (s.setF Reg.rollStatInLock 1).realign
      let s := if bit s.roll.cfg 1 then s.sendRoll 3 (h + 1) f.roll.toNat else s
      if s.roll.stepped then s
      else
        let s := s.modRoll (fun r => { r with stepped := true })
        let p : Int := (f.atPhase : Int) - 3 * h
        let d := (p % 1024).toNat
        s.jump d (((f.roll.toNat : Int) + (1024 + (d : Int) - p) / 1024).toNat))

/-- No valid frame for four rolls (R50). -/
def execRollInLoss (s : State) : Out :=
  .next (if s.source ∨ s.fb Reg.rollStatInLock = false then s
    else
      let s := (s.setF Reg.rollStatLockLost 1).setF Reg.rollStatInLock 0
      (s.modRoll (fun r => { r with gaps := [] })).realign)

/-! Fabric alignment (R44–R48, R440). -/

/-- The direction of the fabric parent: the first hop toward SRC_MODULE, detours included (R44, R421, R423). -/
def State.parentDir (s : State) : Option Nat :=
  let src := fld s.roll.cfg 63 52
  match s.routeDim src with
  | none => none
  | some d =>
    let dir := s.dirTo src d
    let next := (d + 1) % 3
    if s.usable dir ≠ [] then some dir
    else if s.fb Reg.gwlCtrlDetourEn = false then none
    else if s.usable ((dir + 3) % 6) ≠ [] then some ((dir + 3) % 6)
    else if s.usable next ≠ [] then some next
    else if s.usable (next + 3) ≠ [] then some (next + 3)
    else none

/-- An ALIGN packet goes one hop over a port (R440). -/
def State.sendAlign (s : State) (p : Nat) (data : List Byte) : State :=
  s.enqueue p
    { type := 10, vc := 7, detour := 0, pin := false, dest := BitVec.ofNat 12 (s.neighbour s.self (p % 6)),
      src := BitVec.ofNat 12 s.self, tower := 127, tag := 0, off := 0, len := 15, lpa := 0, arg := 0, data := data }

/-- Every 16 rolls a module asks its parent for the time, over the lowest usable port of its direction; `now` is t1 (R44, R440). -/
def execFabricAlignExchange (now : Dword) (s : State) : Out := onMesh s fun s =>
  .next (if s.source ∨ bit s.roll.cfg 2 = false then s
    else match s.parentDir.bind (fun dir => (s.usable dir).head?) with
      | none => s
      | some p => (s.modRoll (fun r => { r with t1 := some now })).sendAlign p (padTo 16 (leBytes 8 now.toNat)))

/-- The parent has not replied for 64 rolls: without frames on ROLL_IN the module is no longer aligned (R50). -/
def execFabricAlignFail (s : State) : Out :=
  .next (if s.source then s
    else
      ((s.setF Reg.rollStatFabricLock 0).modRoll (fun r => { r with t1 := none, parentLost := true })).realign)

/-- A boundary moves in one step to where the measured offset `o`, in 1/64 rc, puts it, the fine delay included (R45,
R48). -/
def State.stepMove (s : State) (o : Int) : State :=
  let units := o - s.roll.fine
  let rc := (units + 63) / 64
  let fine := (rc * 64 - units).toNat
  let d := ((-rc) % 1024).toNat
  let number := ((s.now : Int) + ((1024 + (d : Int) + rc) / 1024)).toNat
  (s.modRoll (fun r => { r with fine := fine, left := 0 })).jump d number

/-- A measured offset is taken (R44–R48). -/
def State.takeOffset (s : State) (o : Int) (parentRoll : Nat) : State :=
  let near := decide (-3 ≤ o) && decide (o ≤ 3)
  let wasAligned := s.fb Reg.rollStatAligned
  let far := decide (6400 < o) || decide (o < -6400)
  let s := (s.setF Reg.rollOffsetOffset (trunc 32 o)).setF Reg.rollStatFabricLock (b2n near)
  let s := (s.modRoll (fun r => { r with near := near, agree := decide (parentRoll = s.now), parentLost := false, stepped := true,
                                         left := o })).realign
  if s.roll.everAligned = false ∨ (wasAligned = true ∧ far = true) then s.stepMove o else s

/-- An ALIGN packet: a request is answered by the port it came by, with its arrival `now` as t2 and the departure `t3`; the parent's
reply arrives at `now`, t4, and gives the offset (R44, R440). DESIGN CHOICE (log entry 52): half of an odd difference is rounded down to a whole
1/64 rc; R44 does not say how. -/
def execAlign (pk : Packet) (kind : AlignKind) (now t1 t2 t3 parentRoll : Dword) (s : State) : Out := onMesh s fun s =>
  .next (match kind with
    | .request p =>
      if s.portUp p.toNat ∧ s.neighbour s.self (p.toNat % 6) = pk.src.toNat then
        s.sendAlign p.toNat (leBytes 8 now.toNat ++ leBytes 8 t3.toNat)
      else s
    | .reply =>
      if s.source ∨ s.roll.t1 ≠ some t1 then s
      else
        let o := ((t2.toInt - t1.toInt) - (now.toInt - t3.toInt)) / 2
        (s.modRoll (fun r => { r with t1 := none })).takeOffset o parentRoll.toNat)

/-- FINE_CORRECTION: at most one step of 156.25 ps in a roll; past the end of the fine delay the boundary's REFCLK edge moves
(R45). -/
def State.fineStep (s : State) : State :=
  let l := s.roll.left
  if l = 0 ∨ s.source then s
  else
    let up := decide (l < 0)
    let s := s.modRoll (fun r =>
      { r with fine := (r.fine + (if up then 1 else 63)) % 64, left := if up then l + 1 else l - 1,
               rc := if up && decide (r.fine = 63) then r.rc + 1 else if !up && decide (r.fine = 0) then r.rc - 1 else r.rc })
    s.incF Reg.rollStatAdjCount 1

/-! Registers of the `ROLL_` block (R66–R69). -/

/-- A write to `ROLL_CFG` takes effect at the boundary of R53 (R68). -/
def State.rollCfgWrite (s : State) (v : Dword) : State :=
  let s := ((s.setF Reg.rollCfgSrcModule (fld v 63 52)).setF Reg.rollCfgLateThresh (fld v 47 32)).setF
    Reg.rollCfgFabricAlignEn (fld v 2 2)
  let s := (s.setF Reg.rollCfgOutEn (fld v 1 1)).setF Reg.rollCfgSource (fld v 0 0)
  s.modRoll (fun r => { r with cfgDue := s.stampAfter r.cfgDue })

def execRollCfg (v : Dword) (s : State) : Out := .next (s.rollCfgWrite v)

/-- LPA of entry 0 of the report ring. -/
def State.rptBase (s : State) : Nat := fld (s.rd Reg.rollRptBase) 44 6 * 64

/-- A write to `ROLL_RPT_CTRL` (R69). -/
def State.rptCtrlWrite (s : State) (v : Dword) : State :=
  let n := fld v 5 1
  let on := s.fb Reg.rollRptCtrlEn
  let s := if !on && decide (6 ≤ n) && decide (n ≤ 16) then s.setF Reg.rollRptCtrlLog2n n else s
  if bit v 0 = false then s.setF Reg.rollRptCtrlEn 0
  else if on then s
  else if s.inDevOrWin s.rptBase (64 * 2 ^ s.f Reg.rollRptCtrlLog2n) = false then s.setF Reg.rollStatRptErr 1
  else
    (((s.setF Reg.rollRptCtrlEn 1).setF Reg.rollRptProdProd 0).setF Reg.rollRptConsCons 0).setF Reg.rollRptDropDrop 0

def execRollRptCtrl (v : Dword) (s : State) : Out := .next (s.rptCtrlWrite v)

/-- The report of the last roll goes to the ring (R62, R66, R69). -/
def execRollReportRingWrite (resp : Resp) (s : State) : Out :=
  .next (match s.roll.due with
    | none => s
    | some bs =>
      let s := s.modRoll (fun r => { r with due := none, settled := false })
      let size := 2 ^ s.f Reg.rollRptCtrlLog2n
      let prod := s.f Reg.rollRptProdProd
      if s.fb Reg.rollRptCtrlEn = false then s
      else if (prod + 2 ^ 32 - s.f Reg.rollRptConsCons) % 2 ^ 32 = size then s.satF Reg.rollRptDropDrop 1
      else
        let (e, s) := s.keepWrite (s.rptBase + prod % size * 64) bs resp
        if e then (s.setF Reg.rollRptCtrlEn 0).setF Reg.rollStatRptErr 1 else s.incF Reg.rollRptProdProd 1)

end Sys2Proof.Machine
end

