-- ==== Sys2Proof/Machine/Rolls.lean ====
section
/-! DEFINITION. The roll boundary (R38, R39, R52–R65, R500–R503). -/

namespace Sys2Proof.Machine

/-! The clock. -/

/-- The next roll begins (R38, R39, R48, R49): a lengthened roll counts as one. -/
def State.nextRoll (s : State) : State :=
  let next := s.roll.adopt.getD (s.now + 1)
  let s := (s.setF Reg.rollCountCount next).setF Reg.rollPhasePhase 0
  s.modRoll (fun r => { r with passed := r.passed + 1, rc := r.rc + r.len, len := 1024, adopt := none })

/-- A due value applies now. -/
def State.dueNow (s : State) (due : Nat) : Bool := decide (due ≠ 0) && decide (due ≤ s.roll.rc)

/-- `ROLL_CFG` takes effect; a roll source reads ALIGNED and no lock, to ROLL_IN or to a parent (R44, R46, R68). -/
def State.applyRollCfg (s : State) : State :=
  if s.dueNow s.roll.cfgDue then
    let was := s.source
    let s := s.modRoll (fun r => { r with cfg := s.rd Reg.rollCfg, cfgDue := 0 })
    if s.source then
      (((s.setF Reg.rollStatAligned 1).setF Reg.rollStatInLock 0).setF Reg.rollStatLockLost 0).setF Reg.rollStatFabricLock 0
    else if was then (s.modRoll (fun r => { r with near := false, agree := false })).realign
    else s
  else s

/-- A roll source sends its frame at its boundary (R42). DESIGN CHOICE (log entry 53): whatever OUT_EN says, which R42 names for a
repeater only. -/
def State.sourceFrame (s : State) : State := if s.source then s.sendRoll 0 0 s.now else s

/-- `KEEP_CFG`, `PWR_FILL`, `PWR_DROOP_CFG` and RESERVE_NEXT take effect (R476, R504, R538). -/
def State.applyDue (s : State) : State :=
  let s := if s.dueNow s.roll.keepCfgDue then s.modRoll (fun r => { r with keepCfg := s.rd Reg.keepCfg, keepCfgDue := 0 }) else s
  let rc := s.roll.rc
  let now := fun (l : List (Nat × Dword)) => (l.filter (fun e => decide (e.1 ≤ rc))).map (·.2)
  let later := fun (l : List (Nat × Dword)) => l.filter (fun e => decide (rc < e.1))
  let s := s.modPwr (fun p =>
    { p with fill := (now p.fillDue).getLast?.getD p.fill, fillDue := later p.fillDue,
             droopCfg := (now p.droopDue).getLast?.getD p.droopCfg, droopDue := later p.droopDue })
  let due := now s.roll.memDue
  overList due (fun v s => s.copyReserve v) (s.modRoll (fun r => { r with memDue := later r.memDue }))

/-! Item 1 of R55: the sample. -/

/-- Contexts that were being saved in the roll just ended are saved, where all that was under way is complete (R61, R471). -/
def State.settleSaves (s : State) : State :=
  overList (range 0 128) (fun t s => if (s.tw t).run = .saving then s.saveTower t .none else s) s

/-- Towers whose sampler has no timer write one record at the sample instant (R334); `ans` tells, by Tower, how the host die answers
the write (R333). -/
def State.degraded (s : State) (t : Nat) : Bool :=
  (s.tw t).armed && s.fb (Reg.twrSmpCtrlEn t) && (s.tw t).step.isSome && decide ((s.tw t).run ≠ .saving)
def State.sampleDegraded (s : State) (ans : List (Nat × Resp)) : State :=
  overList (range 0 128) (fun t s =>
    if s.degraded t then s.sampleWrite t true ((Tab.find ans t).getD .ok) else s) s

/-- Temperatures, coolant, energy, and the host die's draw; a device above 95 °C has its refresh doubled, one above 100 °C its die
limited (R488, R491, R500, R527). -/
def State.sampleSensors (s : State) (env : Sample) : State :=
  let s := overList (range 0 32) (fun r s => match env.temps[r]? with
    | some t => s.setF (Reg.pwrRegionTemp r) t.toNat
    | none => s) s
  let s := (s.setF Reg.pwrCoolantInlet env.inlet.toNat).setF Reg.pwrCoolantOutlet env.outlet.toNat
  let temps := (range 0 24).zip (env.memTemps.map (·.toNat))
  let above := fun (n : Nat) => (temps.filter (fun e => decide (n < e.2))).map (·.1)
  let s := s.modPwr (fun p => { p with
    phy := env.phy, hostPower := env.hostPower.toNat, devTemp := overList temps (fun e m => Tab.set m e.1 e.2) p.devTemp,
    refresh := above 95, limited := (above 100).foldl (fun l d => addOne d l) p.limited })
  s.incF Reg.pwrEnergyUj env.energy.toNat

/-- Counters of tc, which advance by amounts that this manual's timing does not fix here (log entry 18). -/
def State.countTcs (s : State) : State :=
  let count := fun (f : RegField) (s : State) =>
    let (v, s) := s.free
    s.incF f v.toNat
  overList (range 0 128) (fun t s =>
    let w := s.tw t
    let s := if w.run = .retired then s
      else count (Reg.xltWalksWalks t) (count (Reg.twrSwrWaitWait t) (count (Reg.twrSrdWaitWait t) s))
    if w.held = false ∧ w.run ∈ [.running, .done, .stopped] then count (Reg.twrCyclesCycles t) s else s) s

/-- Energy of the roll for each step that occupied Towers, and its channel (R501, R502). -/
def State.shareEnergy (s : State) (energy : Nat) : State :=
  let occ := s.roll.occ
  let keys := (occ.map (·.2)).foldl (fun l k => addOne k l) []
  let tags := (keys.filterMap (fun k => (Tab.find s.steps k).map (fun st => st.fieldAt 8 8))).foldl (fun l x => addOne x l) []
  let exact := decide (tags.length ≤ 1) && keys.all (Tab.has s.steps)
  overList keys (fun k s =>
    let n := (occ.filter (fun e => decide (e.2 = k))).length
    let e := if exact then energy else energy * n / occ.length
    let s := s.modStep k (fun st => { st with energy := satAdd 32 st.energy e, exact := st.exact && exact })
    s.modChan (k / 65536) (fun c =>
      if exact then { c with exactUj := c.exactUj + e } else { c with sharedUj := c.sharedUj + e })) s

/-- Used rolls, rolls of residence, and service received in the roll just ended (R57, R469, R470). -/
def State.countUse (s : State) : State :=
  let occ := s.roll.occ
  let s := overList s.residents (fun e s =>
    s.modStep e.1 (fun st => { st with stay := st.stay + 1, used := if s.stepHeld st then st.used else min 255 (st.used + 1) })) s
  let keys := (occ.map (·.2)).foldl (fun l k => addOne k l) []
  overList keys (fun k s =>
    let n := (occ.filter (fun e => decide (e.2 = k))).length
    s.modChan (k / 65536) (fun c => if c.weight = 0 then c else { c with service := c.service + 1024 * n / c.weight })) s

/-! The report of the roll just ended (R62–R65, R503). -/

/-- Rc that intervals cover, within `stop`; each begins no earlier than the one before it. -/
def covered (stop : Nat) : Nat → List (Nat × Nat) → Nat
  | _, [] => 0
  | e, (a, b) :: l =>
    let a := max a e
    let b := min b stop
    (b - a) + covered stop (max e b) l

/-- Rc in which a Tower ran its step below its ask: in all the roll, while its clock was gated, or within a droop stretch of its
region, up to its `done` (R65, R496). -/
def State.lateOf (s : State) (t : Nat) : Nat :=
  let r := s.roll
  let stop := min r.len (Tab.get r.len r.doneAt t)
  let g := regionOf t
  let slow := if r.slow.contains t then [(0, r.len)] else []
  let gate := match Tab.find s.pwr.gateFrom (t / 64) with | some p => [(p, r.len)] | none => []
  let past := (r.spans.filter (fun e => decide (e.1 = g))).map (·.2)
  let now := match Tab.find s.pwr.droop g with | some p => [(p.1, r.len)] | none => []
  covered stop 0 (sortBy (fun (e : Nat × Nat) => e.1) (slow ++ gate ++ past ++ now))

/-- The longest time for which one Tower ran below its ask (R65). -/
def State.lateRc (s : State) : Nat := ((s.roll.active ++ s.roll.heldT).map s.lateOf).foldl max 0

/-- Throttle reasons of the roll (R503). -/
def State.rollReasons (s : State) : Nat :=
  let droop := s.pwr.stretched.any (fun e => decide (fld s.pwr.droopCfg 47 32 < e.2))
  s.pwr.reasons ||| (4 * b2n (decide (s.pwr.limited ≠ []))) ||| (16 * b2n droop) ||| (64 * b2n s.pwr.alertGated)

/-- OP_RANGE (R63). -/
def State.opRange (s : State) : Nat × Nat :=
  let ops := s.pwr.asked.map (fun r => s.f (Reg.pwrRegionOp r))
  match ops with
  | [] => (0, 0)
  | x :: xs => (xs.foldl max x, xs.foldl min x)

/-- The 64 bytes of the report of the roll that `s` stands at the end of; `post` is the number of completions posted at
the boundary (R63). -/
def State.report (s : State) (env : Sample) (post : Nat) : List Byte :=
  let r := s.roll
  let last := match r.barrier with | some b => b.last | none => false
  let late := decide (fld r.cfg 47 32 < s.lateRc) || last
  let flags := b2n late + 2 * s.f Reg.rollStatAligned + 4 * b2n (decide (r.heldT ≠ [])) + 8 * b2n (decide (r.overruns ≠ 0))
    + 16 * b2n r.adopt.isSome + 32 * b2n r.degraded
  let active := r.active.filter (fun t => decide ((s.tw t).run ∉ [.restoring, .restored]))
  let (hi, lo) := s.opRange
  let b := r.barrier.getD ⟨0xFFFFFFFF, 0, 0, 0, false⟩
  withCrc (leBytes 8 s.now ++ leBytes 2 s.self ++ leBytes 2 flags ++ leBytes 1 active.length ++ leBytes 1 r.heldT.length
    ++ leBytes 1 ((env.temps.map (·.toNat)).foldl max 0) ++ leBytes 1 (hi * 16 + lo) ++ leBytes 4 env.energy.toNat
    ++ leBytes 2 (s.f Reg.pwrCapInForce) ++ leBytes 2 env.power.toNat ++ leBytes 1 s.rollReasons ++ [0, 0, 0]
    ++ leBytes 4 b.id ++ leBytes 4 b.slack ++ leBytes 2 b.arrRolls ++ leBytes 2 b.arrPhase ++ leBytes 2 post
    ++ leBytes 2 r.placed ++ leBytes 2 r.preempted ++ leBytes 2 r.errors ++ leBytes 4 (s.f Reg.rollOffsetOffset))

/-- Keeps the report of `old`'s roll, newest of 64, and leaves it due for the ring (R62). -/
def State.keepReport (s old : State) (env : Sample) (post : Nat) : State :=
  let bs := old.report env post
  s.modRoll (fun r => { r with reports := ((old.now, bs) :: r.reports).take 64, due := some bs })

/-- Throttle registers and telemetry of the roll just ended (R503, R521). -/
def State.account (s old : State) (env : Sample) : State :=
  let why := old.rollReasons
  let s := s.setF Reg.pwrStatThrottle why
  let s := overList ((range 0 7).filter why.testBit) (fun n s => s.satF (Reg.pwrThrCntRolls n) 1) s
  let (hi, lo) := old.opRange
  let x := s.rel
  let seen := decide (old.pwr.asked ≠ [])
  let rel : RelSt := { x with
    teleEnergy := satAdd 32 x.teleEnergy env.energy.toNat, teleTj := max x.teleTj ((env.temps.map (·.toNat)).foldl max 0),
    teleOpHi := if seen then max x.teleOpHi hi else x.teleOpHi, teleOpLo := if seen then min x.teleOpLo lo else x.teleOpLo,
    teleOpSeen := x.teleOpSeen || seen, teleReasons := x.teleReasons ||| why,
    teleHeld := min 255 (x.teleHeld + b2n (decide (old.roll.heldT ≠ []))) }
  { s with rel := rel }.closeTelemetry

/-- What a new roll starts to count. -/
def State.freshRoll (s : State) : State :=
  let s := s.modRoll (fun r => { r with
    barrier := none, placed := 0, preempted := 0, errors := 0, doneAt := [], spans := [], settled := true, degraded := false })
  s.modPwr (fun p => { p with stretched := [], droop := p.droop.map (fun e => (e.1, 0, e.2.2)) })

/-! Items 2 and 3 of R55. -/

/-- Complete steps post, and behind them steps that failed a check (R56, R460, R462). -/
def State.postComplete (s : State) (ans : CqAnswers) : State :=
  overList (s.chans.map (·.1)) (fun n s =>
    let s := match s.headOf n with
      | some (i, st) => if s.complete st && decide (st.fail = 0) && !s.stepOut st then s.finish (n * 65536 + i) 0 ans else s
      | none => s
    s.postFailed n ans 65536) s

/-- Struck steps, steps that ended in a program error, and steps whose budget is spent (R57–R59, R468, R564). -/
def State.endSteps (s : State) (ans : CqAnswers) : State :=
  overList (s.steps.map (·.1)) (fun k s => match Tab.find s.steps k with
    | none => s
    | some st =>
      if s.stepOut st ∨ st.fail ≠ 0 then s
      else if st.struck then s.handleStruck k ans
      else if st.progErr then s.finish k 0x204 ans
      else if st.phase = .resident ∧ st.budget ≤ st.used then s.finish k 0x202 ans
      else s) s

/-- A part fault of the follower in the roll just ended, with its cause in the order of R516; steps dispatched at the boundary that began
that roll were in dispatch (R28, R467, R516). -/
def State.followerCheck (s : State) (env : Sample) : State :=
  let silent := if env.reported then 0 else s.rel.keepSilent + 1
  let s := { s with rel := { s.rel with keepSilent := silent } }
  if env.followerFault = false ∧ silent < 2 ∧ env.bridgeFault = false then s
  else s.followerFails (if env.followerFault then 1 else if 2 ≤ silent then 2 else 3) (fun st => decide (st.stay = 1))

/-- A halted Keep wakes at a boundary (R300). -/
def Core.wake (k : Core) : Core := if k.wait = .halted then { k with wait := .none } else k

/-- What the roll that begins is measured by: occupied, active, held and slow Towers (R63, R65, R501). -/
def State.measure (s : State) : State :=
  let ts := (range 0 128).filter (fun t => (s.tw t).step.isSome)
  let active := ts.filter (fun t => !(s.tw t).held && decide ((s.tw t).run ∉ [.done, .saving]))
  s.modRoll (fun r => { r with occ := ts.map (fun t => (t, ((s.tw t).step).getD 0)), active := active,
                               heldT := ts.filter (fun t => (s.tw t).held), slow := ts.filter s.slowTower,
                               degraded := r.degraded || (range 0 128).any s.degraded })

/-- The Keeps run and firmware serves boundaries (R539). -/
def State.keepsAct (s : State) : Bool := s.alive && s.boot.power && s.boot.fw.isSome

/-- Items 3, 4 and 6 of R55; Towers that their steps have left by then and that were judged are retired (R512). -/
def State.stepItems (old : State) (ans : CqAnswers) : State :=
  let s := old.endSteps ans
  let s := (overList (s.chans.map (·.1)) (fun n s => s.postFailed n ans 65536) s).retireReleased
  let s := s.schedule s.roll.directed
  s.modRoll (fun r => { r with settled := r.settled && decide (s.steps = old.steps) })

/-- Items 2 to 6 of R55, with the packets and judgements between items 2 and 3. The asks of item 5 are those of the steps that
have Towers in the roll that begins (R482, R483), so it is computed once item 6 has placed them; its ceilings, by which item 4
judges saves too, stand before (R471). -/
def State.decide' (s : State) (env : Sample) : State :=
  let ans := env.cqAnswers
  let s := s.followerCheck env
  let s := s.modRoll (fun r => { r with directed := env.directed || s.fb Reg.keepStatLeaderOnly })
  let s := s.postComplete ans
  let s := s.collBreaks
  let s := if s.ready then s.takePackets ans env.admAnswers else s
  let s := s.applyTests.judgements
  ((s.ceilings).stepItems ans).setPoints

/-- The boundary (R52–R66). -/
def State.boundary (old : State) (env : Sample) : State :=
  let old := old.closeStretches
  let s := (((old.nextRoll.applyRollCfg).fineStep).sourceFrame).landLate
  if !old.keepsAct then
    (if s.boot.power then s.freshRoll.incF Reg.pwrEnergyUj env.energy.toNat else s.freshRoll)
  else
    let s := ((s.freshRoll).applyDue).applyReplan
    let s := { s with keep0 := s.keep0.wake, keep1 := s.keep1.wake }
    let s := (s.settleSaves).sampleDegraded env.smpAnswers
    let s := ((s.sampleSensors env).countTcs).shareEnergy env.energy.toNat
    let s := (((s.countUse).account old env).regate).noteConditions
    if env.late then
      let s := (s.setF Reg.rollStatOverrun 1).modRoll (fun r => { r with overruns := r.overruns + 1, settled := false })
      ((s.ceilings).measure).keepReport old env 0
    else
      let s := s.modRoll (fun r => { r with overruns := 0 })
      let before := s.rel.telePosted
      let s := s.decide' env
      (s.measure).keepReport old env (s.rel.telePosted - before)

/-- ROLL_BOUNDARY (R55). -/
def execRollBoundary (env : Sample) (s : State) : Out := .next (s.boundary env)

/-! Packets whose effect items 3 to 7 of R55 see, when they come by their own rows at the boundary. -/

/-- A report with `n` completions more in DONE (R63). -/
def addDone (n : Nat) (bs : List Byte) : List Byte :=
  withCrc (bs.take 0x28 ++ leBytes 2 (leAt bs 0x28 2 + n) ++ (bs.take 60).drop 0x2A)

/-- Completions that a packet posts at the boundary count in the report of the roll just ended (R63). -/
def State.amendReport (s : State) (n : Nat) : State :=
  if n = 0 then s
  else s.modRoll (fun r => { r with
    reports := (match r.reports with | [] => [] | x :: xs => (x.1, addDone n x.2) :: xs), due := r.due.map (addDone n) })

/-- A packet that the Keep takes at a boundary which stands settled: items 3 to 6 follow it (R55). -/
def followPacket (act : State → Ans × State) (old : State) : Ans × State :=
  let r := act old
  let s := r.2
  if r.1.status = 0 ∧ (s.atBoundary && s.keepsAct && s.ready) = true then
    let s := (((s.stepItems []).setPoints).measure)
    (r.1, s.amendReport (s.rel.telePosted - old.rel.telePosted))
  else r

def execCapSet (p : Path) (w : Wennum) (s : State) : Out := s.packetRow p 0x20 w (followPacket (State.doCapSet p w))
def execChanAbort (p : Path) (w : Wennum) (s : State) : Out := s.packetRow p 0x13 w (followPacket (State.doChanAbort w []))
def execChanSet (p : Path) (w : Wennum) (s : State) : Out := s.packetRow p 0x12 w (followPacket (State.doChanSet w))
def execChanRing (p : Path) (w : Wennum) (s : State) : Out := s.packetRow p 0x14 w (followPacket (State.doChanRing w []))

end Sys2Proof.Machine
end

