-- ==== Sys2Proof/Machine/CtrlReg.lean ====
section
/-! DEFINITION. Writes and reads of control registers by whoever reaches them: the driver, the Keeps and a Tower's own
core (R13–R17, R294, R295, R533, R534). -/

namespace Sys2Proof.Machine

/-- The bits of a 64-bit register that an access of a size reaches (R13). -/
def lowHalf : Dword := 0xFFFFFFFF
def highHalf : Dword := 0xFFFFFFFF00000000
def grantOf : RegSize → Dword
  | .full => -1 | .low => lowHalf | .high => highHalf

/-- A write, by the driver or a Keep, to offset `o` of a Tower's blocks, within a grant; `m` is the value with the bits
the access does not reach left as they are. -/
def State.towerWrite (s : State) (t o : Nat) (v m grant : Dword) : State :=
  let a := towerBase t + o
  let low := decide (grant &&& lowHalf ≠ 0)
  if o / 0x1000 = 3 ∨ o / 0x1000 = 4 ∨ o / 0x1000 = 5 ∨ o / 0x1000 = 6 then s.engRegPut a v grant
  else if a = Reg.twrDoorbell t then s.doorbell t m
  else if a = Reg.twrWdog t then (if low then s.wdogWrite t m else s)
  else if a = Reg.twrSmpCtrl t then s.smpCtrlWrite t m
  else if a = Reg.twrSmpBase t then (if s.fb (Reg.twrSmpCtrlEn t) then s else s.plainWrite a v grant)
  else if Reg.twrTcfg t 0 ≤ a ∧ a < Reg.twrTcfg t 8 then
    (if (s.tw t).step = none then s.tcfgPut t ((a - Reg.twrTcfg t 0) / 8) m else s)
  else if a = Reg.accTrkCfg t then
    (if (s.tw t).step = none ∧ fld m 11 0 ≠ 0 then s.plainWrite a v grant else s)
  else if a = Reg.xltPfreq t then s.wrPfreq t m
  else s.plainWrite a v grant

/-- A write to a register of the module's own blocks. -/
def State.moduleWrite (s : State) (a : Nat) (v m grant : Dword) : State :=
  let low := decide (grant &&& lowHalf ≠ 0)
  if a = Reg.rollCfg then s.rollCfgWrite m
  else if a = Reg.rollRptCtrl then (if low then s.rptCtrlWrite m else s)
  else if a = Reg.rollRptBase then (if s.fb Reg.rollRptCtrlEn then s else s.plainWrite a v grant)
  else if a = Reg.memCfg then s.memCfgWrite m
  else if a = Reg.xltCtrl then s.wrXltCtrl v grant
  else if a = Reg.xltFqBase then (if s.fb Reg.xltCtrlFqEn then s else s.plainWrite a v grant)
  else if a = Reg.xltFqResolve then s.wrResolve m
  else if a = Reg.xltInvCtrl then s.wrInvCtrl v grant
  else if Reg.xltRoot 0 ≤ a ∧ a < Reg.xltRoot 256 then s.wrXltRoot ((a - Reg.xltRoot 0) / 8) v grant
  else if a = Reg.gwlCtrl then
    let keep := s.f Reg.gwlCtrlTimeout
    let s := s.plainWrite a v grant
    if s.f Reg.gwlCtrlTimeout < 10 then s.setF Reg.gwlCtrlTimeout keep else s
  else if Reg.gwlPort 0 ≤ a ∧ a < Reg.gwlPort 18 then
    (if bit (v &&& grant) 0 then s.retirePort ((a - Reg.gwlPort 0) / 8) 0 else s)
  else if a = Reg.keepCfg then s.keepCfgWrite m
  else if a = Reg.keepAdmBase ∨ a = Reg.keepAdmRbase then (if s.fb Reg.keepAdmCtrlEn then s else s.plainWrite a v grant)
  else if a = Reg.keepAdmCtrl then (if low then s.admCtrlWrite m else s)
  else if a = Reg.keepAdmProd then (if low then s.admProdWrite m else s)
  else if 0x1F0000100000 ≤ a ∧ a < 0x1F0000120000 then s.doorbellWrite ((a - 0x1F0000100000) / 8) m
  else if a = Reg.pwrFill then s.pwrFillWrite m
  else if a = Reg.pwrDroopCfg then s.pwrDroopCfgWrite m
  else if a = Reg.hstCtrl then
    let keep := s.f Reg.hstCtrlTimeout
    let s := s.plainWrite a v grant
    if s.f Reg.hstCtrlTimeout < 10 then s.setF Reg.hstCtrlTimeout keep else s
  else if a = Reg.hstReset then (if low then s.hstResetWrite m else s)
  else if a = Reg.hstIrqEoi then (if low then s.eoiWrite m else s)
  else s.plainWrite a v grant

/-- A write by the driver or a Keep to the 8-byte-aligned control register at `a`, within a grant; the half of a
write-only register that the access does not reach counts as 0. -/
def State.ctrlWrite (s : State) (a : Nat) (v grant : Dword) : State :=
  let m := (s.rd a &&& ~~~ grant) ||| (v &&& grant)
  let s :=
    if 0x1F0100000000 ≤ a then
      if a < 0x1F0108000000 then s.towerWrite ((a - 0x1F0100000000) / 0x100000) (a % 0x100000) v m grant else s
    else s.moduleWrite a v m grant
  s.irqSync

/-! `crr` and `crw`. -/

/-- LPA that a control-register access of a core names, the alias of its own Tower's block resolved (R294). -/
def ctrlTarget (c : CoreId) (a : Nat) : Nat := match c with
  | .tower t => if 0x1F010FF00000 ≤ a ∧ a < 0x1F0110000000 then towerBase t.toNat + a % 0x100000 else a
  | .keep _ => a

/-- The address lies in the blocks of Tower `t`. -/
def ownBlock (t a : Nat) : Bool := decide (towerBase t ≤ a) && decide (a < towerBase t + 0x100000)

/-- The bits of the register at offset `o` of its own blocks that a Tower program may write (R143, R168, R198, R225,
R258, R336, R371, R406). -/
def towerGrant (o : Nat) : Dword :=
  if o = 0x0 then 6
  else if o = 0x8 ∨ o = 0x10 ∨ o = 0x18 ∨ o = 0x20 ∨ o = 0x28 ∨ o = 0x48 ∨ o = 0x200 then -1
  else if 0x240 ≤ o ∧ o < 0x280 then -1
  else if o / 0x1000 = 4 then -1
  else if o = 0x5000 ∨ o = 0x5008 ∨ o = 0x5010 ∨ o = 0x5018 ∨ o = 0x5020 ∨ o = 0x5028 then -1
  else if o = 0x6000 ∨ o = 0x6008 ∨ o = 0x6010 ∨ o = 0x6020 ∨ o = 0x6030 then -1
  else if o = 0x7000 ∨ o = 0x7008 then -1
  else if o = 0x8000 then -1
  else 0

/-- The register has a field that a write within the grant reaches; `XLT_PFREQ` is all write-only. -/
def grantReaches (a : Nat) (info : RegInfo) (grant : Dword) : Bool :=
  decide (a % 0x100000 = 0x8000)
    || decide (BitVec.ofNat 64 (info.rw ||| info.w1c ||| info.w1s) &&& grant ≠ 0)

/-- The engine whose queue carries accesses to a block (R295). -/
def blockEngine (o : Nat) : Option Eng :=
  if o / 0x1000 = 3 then some .spr else if o / 0x1000 = 4 then some .dom else if o / 0x1000 = 5 then some .tur
  else if o / 0x1000 = 6 then some .vec else none

/-- A Tower program's read (R67, R87, R294, R295). -/
def State.towerCrr (s : State) (t : TId) (w : Word) (d : GReg) (named a : Nat) : Out :=
  let c := CoreId.tower t
  let T := t.toNat
  let give := fun (s : State) => Host.Outcome.next (s.retire c ((s.core c).setG d (s.readReg a)))
  if a = Reg.rollCount ∨ a = Reg.rollPhase then give s
  else if !ownBlock T a then s.privilege c named
  else
    let o := a % 0x100000
    match blockEngine o with
    | some e =>
      if o % 0x1000 ≠ 0 ∨ e = .spr then give s
      else
        let s := s.engGo T e
        if !s.executes c then .next s
        else if (s.tw T).queue e ≠ [] then .next (s.stall c .engineOrdered w)
        else give s
    | none => give s

/-- `crr` (R294, R295). -/
def execCrr (c : CoreId) (d a : GReg) (off : BitVec 15) (s : State) : Out :=
  let w := encode (.crr c d a off)
  onCoreAt c w s fun s =>
    let k := s.core c
    let named := offsetOf (k.getG a) (8 * off.toInt)
    if named % 8 ≠ 0 then .next (s.retire c (k.setG d 0))
    else match c with
      | .tower t => s.towerCrr t w d named (ctrlTarget c named)
      | .keep _ => .next (s.retire c (k.setG d (s.readReg named)))

/-- A write that a Tower's core performs at once. -/
def State.towerPut (s : State) (t o : Nat) (v grant : Dword) : State :=
  let a := towerBase t + o
  if a = Reg.twrWdog t then s.wdogWrite t v
  else if a = Reg.xltPfreq t then s.wrPfreq t v
  else s.plainWrite a v grant

/-- A Tower program's write (R210, R211, R294, R295). -/
def State.towerCrw (s : State) (t : TId) (w : Word) (named a : Nat) (v : Dword) : Out :=
  let c := CoreId.tower t
  let T := t.toNat
  if !ownBlock T a then s.privilege c named
  else
    let o := a % 0x100000
    match regInfo a with
    | none => .next (s.retire c (s.core c))
    | some info =>
      if !grantReaches a info (towerGrant o) then s.privilege c named
      else if 0x240 ≤ o ∧ o < 0x280 then s.tcfgByTower t w ((o - 0x240) / 8) v
      else match blockEngine o with
        | some e =>
          let s := if 32 ≤ ((s.tw T).queue e).length then s.engGo T e else s
          if !s.executes c then .next s
          else if 32 ≤ ((s.tw T).queue e).length then .next (s.stall c .queueFull w)
          else
            let s := s.modTw T (fun w => w.pushEntry e (.crw a v) [] [] 0 0 0 false)
            .next ((s.retire c (s.core c)).engGo T e)
        | none =>
          let s := s.towerPut T o v (towerGrant o)
          .next (s.retire c (s.core c))

/-- `crw` (R294, R295). -/
def execCrw (c : CoreId) (a b : GReg) (off : BitVec 15) (s : State) : Out :=
  let w := encode (.crw c a b off)
  onCoreAt c w s fun s =>
    let k := s.core c
    let named := offsetOf (k.getG a) (8 * off.toInt)
    if named % 8 ≠ 0 then .next (s.retire c k)
    else match c with
      | .tower t => s.towerCrw t w named (ctrlTarget c named) (k.getG b)
      | .keep _ =>
        let s := if 0x1F0000000000 ≤ named ∧ named < 0x200000000000 then s.ctrlWrite named (k.getG b) (-1) else s
        .next (s.retire c (s.core c))

/-! The host die (R533, R534). -/

/-- The module answers the host die at an address; while READY is low only the `HST_` and `SEC_` blocks do. -/
def State.answers (s : State) (lpa : Nat) : Bool :=
  s.fb Reg.hstStatReady || decide (lpa / 0x10000 = 0x1F000007) || decide (lpa / 0x10000 = 0x1F000008)

/-- A block of control registers occupies the address; the alias of R294 is a hole to the host die. -/
def aliasHole (lpa : Nat) : Bool := decide (0x1F010FF00000 ≤ lpa) && decide (lpa < 0x1F0110000000)

/-- The half of a register that an aligned access of 4 bytes reaches, or all of it (R13). -/
def accessGrant (lpa n : Nat) : Option Dword :=
  if n = 8 ∧ lpa % 8 = 0 then some (-1)
  else if n = 4 ∧ lpa % 8 = 0 then some lowHalf
  else if n = 4 ∧ lpa % 8 = 4 then some highHalf
  else none

/-- A host-die write of control registers. -/
def State.hostCtrlWrite (s : State) (lpa : Nat) (bs : List Byte) : State :=
  if aliasHole lpa then s.setF Reg.hstStatHole 1
  else match accessGrant lpa bs.length with
    | none => s
    | some g => s.ctrlWrite (lpa / 8 * 8) (BitVec.ofNat 64 (leNat bs * 2 ^ (8 * (lpa % 8)))) g

/-- A host-die read of control registers. -/
def State.hostCtrlRead (s : State) (lpa n : Nat) : List Byte × State :=
  if aliasHole lpa then (List.replicate n 0, s.setF Reg.hstStatHole 1)
  else match accessGrant lpa n with
    | none => (List.replicate n 0, s)
    | some _ => (((leBytes 8 (s.readReg (lpa / 8 * 8)).toNat).drop (lpa % 8)).take n, s)

/-- Some pieces of a host-die access lie in a hole or in the window. -/
def State.hostPiece (s : State) (lpa : Nat) : Bool := match s.lpaPlace lpa with
  | .device => true
  | .store _ => true
  | _ => false

/-- A piece lies in device memory, whose errors MEMERR tells of (R533). -/
def State.hostDevice (s : State) (lpa : Nat) : Bool := decide (s.lpaPlace lpa = .device)

/-- A host-die write of memory, piece by piece. -/
def State.hostMemWrite (s : State) (lpa : Nat) (bs : List Byte) : State :=
  overList (granules lpa bs.length) (fun p (s : State) =>
    if s.hostPiece p.1 then
      let (e, s) := s.writePiece 128 p.1 ((bs.drop (p.1 - lpa)).take p.2)
      if e && s.hostDevice p.1 then s.setF Reg.hstStatMemerr 1 else s
    else s.setF Reg.hstStatHole 1) s

/-- A host-die read of memory, piece by piece. -/
def State.hostMemRead (s : State) (lpa n : Nat) : HostAns × State :=
  let r := (granules lpa n).foldl (fun (acc : List Byte × Bool × State) p =>
    let (bs, bad, s) := acc
    if s.hostPiece p.1 then
      let (b, e, s) := s.readMem 128 p.1 p.2
      (bs ++ b, bad || e, if e && s.hostDevice p.1 then s.setF Reg.hstStatMemerr 1 else s)
    else (bs ++ List.replicate p.2 0, bad, s.setF Reg.hstStatHole 1)) ([], false, s)
  (if r.2.1 then .error else .data r.1, r.2.2)

/-- An access that is not answered while READY is low. -/
def State.notReady (s : State) : State := s.setF Reg.hstStatNotready 1

/-- A host-die write of 1 to 256 bytes. -/
def State.hostWrite (s : State) (lpa : Nat) (bs : List Byte) : State :=
  if s.boot.power = false ∨ bs.length = 0 ∨ 256 < bs.length then s
  else if !s.answers lpa then s.notReady
  else if 0x1F0000000000 ≤ lpa then s.hostCtrlWrite lpa bs
  else s.hostMemWrite lpa bs

/-- A completion goes back to the host die. -/
def State.completion (s : State) (x : HostAns) : State := { s with out := { s.out with host := s.out.host ++ [x] } }

/-- HOST_WRITE (R533, R534). -/
def execHostWrite (lpa : BitVec 45) (bytes : List Byte) (s : State) : Out := .next (s.hostWrite lpa.toNat bytes)

/-- A host-die read of 1 to 256 bytes. -/
def State.hostRead (s : State) (lpa n : Nat) : State :=
  if s.boot.power = false ∨ n = 0 ∨ 256 < n then s
  else if !s.answers lpa then s.notReady.completion (.data (List.replicate n 0))
  else if 0x1F0000000000 ≤ lpa then
    let (bs, s) := s.hostCtrlRead lpa n
    s.completion (.data bs)
  else
    let (x, s) := s.hostMemRead lpa n
    s.completion x

/-- HOST_READ (R533). -/
def execHostRead (lpa : BitVec 45) (n : Nat) (s : State) : Out := .next (s.hostRead lpa.toNat n)

/-- REGISTER_WRITE: the driver's write of a register, or of one half of it (R13, R15). -/
def execRegisterWrite (lpa : BitVec 45) (size : RegSize) (v : Dword) (s : State) : Out :=
  .next (match size with
    | .full => s.hostWrite lpa.toNat (leBytes 8 v.toNat)
    | .low => s.hostWrite lpa.toNat (leBytes 4 v.toNat)
    | .high => s.hostWrite (lpa.toNat + 4) (leBytes 4 (v.toNat / 2 ^ 32)))

end Sys2Proof.Machine
end

