-- ==== Sys2Proof/Machine/IntAlu.lean ====
section
/-! DEFINITION. Integer instructions (R266–R268), one meaning each. -/

namespace Sys2Proof.Machine

/-- An ALU instruction on two registers. -/
def alu2 (c : CoreId) (d a b : GReg) (f : Bool) (op : Dword → Dword → Dword → Alu) (s : State) : Out :=
  onCore c s fun s =>
    let k := s.core c
    .next (aluDone c d f (op (k.getG a) (k.getG b) k.flags) s)

/-- A count of one register (B = 0). -/
def alu1 (c : CoreId) (d a : GReg) (f : Bool) (op : Dword → Dword) (s : State) : Out :=
  onCore c s fun s => .next (aluDone c d f (aluPlain (op ((s.core c).getG a))) s)

/-- An instruction with a result and no flags. -/
def aluImm (c : CoreId) (d a : GReg) (op : Dword → Dword) (s : State) : Out :=
  onCore c s fun s => .next (aluDone c d false (aluPlain (op ((s.core c).getG a))) s)

/-- `add` (R266). -/
def execAdd (c : CoreId) (d a b : GReg) (f : Bool) (s : State) : Out :=
  alu2 c d a b f (fun x y _ => aluAdd x y 0) s

/-- `sub` (R266). -/
def execSub (c : CoreId) (d a b : GReg) (f : Bool) (s : State) : Out :=
  alu2 c d a b f (fun x y _ => aluSub x y 0) s

/-- `and` (R266). -/
def execAnd (c : CoreId) (d a b : GReg) (f : Bool) (s : State) : Out :=
  alu2 c d a b f (fun x y _ => aluPlain (x &&& y)) s

/-- `or` (R266). -/
def execOr (c : CoreId) (d a b : GReg) (f : Bool) (s : State) : Out :=
  alu2 c d a b f (fun x y _ => aluPlain (x ||| y)) s

/-- `xor` (R266). -/
def execXor (c : CoreId) (d a b : GReg) (f : Bool) (s : State) : Out :=
  alu2 c d a b f (fun x y _ => aluPlain (x ^^^ y)) s

/-- `sll`: the count is gB[5:0] (R266). -/
def execSll (c : CoreId) (d a b : GReg) (f : Bool) (s : State) : Out :=
  alu2 c d a b f (fun x y _ => aluPlain (x <<< (y.toNat % 64))) s

/-- `srl` (R266). -/
def execSrl (c : CoreId) (d a b : GReg) (f : Bool) (s : State) : Out :=
  alu2 c d a b f (fun x y _ => aluPlain (x >>> (y.toNat % 64))) s

/-- `sra` (R266). -/
def execSra (c : CoreId) (d a b : GReg) (f : Bool) (s : State) : Out :=
  alu2 c d a b f (fun x y _ => aluPlain (x.sshiftRight (y.toNat % 64))) s

/-- `mul` (R266). -/
def execMul (c : CoreId) (d a b : GReg) (f : Bool) (s : State) : Out :=
  alu2 c d a b f (fun x y _ => aluMul x y) s

/-- `mulh` (R266). -/
def execMulh (c : CoreId) (d a b : GReg) (f : Bool) (s : State) : Out :=
  alu2 c d a b f (fun x y _ => aluMulh x y) s

/-- `mulhu` (R266). -/
def execMulhu (c : CoreId) (d a b : GReg) (f : Bool) (s : State) : Out :=
  alu2 c d a b f (fun x y _ => aluMulhu x y) s

/-- `div` (R267) (R266). -/
def execDiv (c : CoreId) (d a b : GReg) (f : Bool) (s : State) : Out :=
  alu2 c d a b f (fun x y _ => aluDiv x y) s

/-- `divu` (R266). -/
def execDivu (c : CoreId) (d a b : GReg) (f : Bool) (s : State) : Out :=
  alu2 c d a b f (fun x y _ => aluDivu x y) s

/-- `rem` (R266). -/
def execRem (c : CoreId) (d a b : GReg) (f : Bool) (s : State) : Out :=
  alu2 c d a b f (fun x y _ => aluRem x y) s

/-- `remu` (R266). -/
def execRemu (c : CoreId) (d a b : GReg) (f : Bool) (s : State) : Out :=
  alu2 c d a b f (fun x y _ => aluRemu x y) s

/-- `min` (R266). -/
def execMin (c : CoreId) (d a b : GReg) (f : Bool) (s : State) : Out :=
  alu2 c d a b f (fun x y _ => aluPlain (if x.toInt ≤ y.toInt then x else y)) s

/-- `max` (R266). -/
def execMax (c : CoreId) (d a b : GReg) (f : Bool) (s : State) : Out :=
  alu2 c d a b f (fun x y _ => aluPlain (if x.toInt ≤ y.toInt then y else x)) s

/-- `minu` (R266). -/
def execMinu (c : CoreId) (d a b : GReg) (f : Bool) (s : State) : Out :=
  alu2 c d a b f (fun x y _ => aluPlain (if x.toNat ≤ y.toNat then x else y)) s

/-- `maxu` (R266). -/
def execMaxu (c : CoreId) (d a b : GReg) (f : Bool) (s : State) : Out :=
  alu2 c d a b f (fun x y _ => aluPlain (if x.toNat ≤ y.toNat then y else x)) s

/-- `adc`: A + B + C (R266). -/
def execAdc (c : CoreId) (d a b : GReg) (f : Bool) (s : State) : Out :=
  alu2 c d a b f (fun x y f => aluAdd x y (b2n (flagC f))) s

/-- `sbc`: A − B − (1 − C) (R266). -/
def execSbc (c : CoreId) (d a b : GReg) (f : Bool) (s : State) : Out :=
  alu2 c d a b f (fun x y f => aluSub x y (1 - b2n (flagC f))) s

/-- `clz` (R266). -/
def execClz (c : CoreId) (d a : GReg) (f : Bool) (s : State) : Out :=
  alu1 c d a f (fun x => BitVec.ofNat 64 (clz64 x)) s

/-- `ctz` (R266). -/
def execCtz (c : CoreId) (d a : GReg) (f : Bool) (s : State) : Out :=
  alu1 c d a f (fun x => BitVec.ofNat 64 (ctz64 x)) s

/-- `popc` (R266). -/
def execPopc (c : CoreId) (d a : GReg) (f : Bool) (s : State) : Out :=
  alu1 c d a f (fun x => BitVec.ofNat 64 (popcount 64 x.toNat)) s

/-- `addi`: the immediate is sign-extended (R266). -/
def execAddi (c : CoreId) (d a : GReg) (imm : Half) (s : State) : Out :=
  aluImm c d a (fun x => x + imm.signExtend 64) s

/-- `addi.f` sets the flags as `add` does (R266). -/
def execAddiF (c : CoreId) (d a : GReg) (imm : Half) (s : State) : Out :=
  onCore c s fun s => .next (aluDone c d true (aluAdd ((s.core c).getG a) (imm.signExtend 64) 0) s)

/-- `andi`, `ori`, `xori` zero-extend their immediate (R266). -/
def execAndi (c : CoreId) (d a : GReg) (imm : Half) (s : State) : Out :=
  aluImm c d a (fun x => x &&& imm.setWidth 64) s
/-- `ori`. -/
def execOri (c : CoreId) (d a : GReg) (imm : Half) (s : State) : Out :=
  aluImm c d a (fun x => x ||| imm.setWidth 64) s
/-- `xori`. -/
def execXori (c : CoreId) (d a : GReg) (imm : Half) (s : State) : Out :=
  aluImm c d a (fun x => x ^^^ imm.setWidth 64) s

/-- `slli` (R264). -/
def execSlli (c : CoreId) (d a : GReg) (n : BitVec 6) (s : State) : Out :=
  aluImm c d a (fun x => x <<< n.toNat) s
/-- `srli`. -/
def execSrli (c : CoreId) (d a : GReg) (n : BitVec 6) (s : State) : Out :=
  aluImm c d a (fun x => x >>> n.toNat) s
/-- `srai`. -/
def execSrai (c : CoreId) (d a : GReg) (n : BitVec 6) (s : State) : Out :=
  aluImm c d a (fun x => x.sshiftRight n.toNat) s

/-- `kset`: sext(imm) × 2^(16h) (R268). -/
def execKset (c : CoreId) (d : GReg) (imm : Half) (h : BitVec 2) (s : State) : Out :=
  aluImm c d 0 (fun _ => imm.signExtend 64 <<< (16 * h.toNat)) s

/-- `kins` replaces bits [16h + 15 : 16h] (R268). -/
def execKins (c : CoreId) (d : GReg) (imm : Half) (h : BitVec 2) (s : State) : Out :=
  aluImm c d d (fun x => setFld x (16 * h.toNat + 15) (16 * h.toNat) imm.toNat) s

end Sys2Proof.Machine
end

