-- ==== Sys2Proof/Machine/Dispatch.lean ====
section
/-! DEFINITION. One arm per command: each is one call of the command's meaning. -/

namespace Sys2Proof.Machine

def exec (i : Instr) (s : State) : Host.Outcome State Fault Refusal :=
  match i with
  | .rollBoundary env => Sys2Proof.Machine.execRollBoundary env s
  | .rollReportRingWrite resp => Sys2Proof.Machine.execRollReportRingWrite resp s
  | .rollFrame f => Sys2Proof.Machine.execRollFrame f s
  | .rollInLoss => Sys2Proof.Machine.execRollInLoss s
  | .fabricAlignExchange now => Sys2Proof.Machine.execFabricAlignExchange now s
  | .fabricAlignFail => Sys2Proof.Machine.execFabricAlignFail s
  | .rollCfg v => Sys2Proof.Machine.execRollCfg v s
  | .rollRptCtrl v => Sys2Proof.Machine.execRollRptCtrl v s
  | .dmCfg t is d cls m n => Sys2Proof.Machine.execDmCfg t is d cls m n s
  | .dmFree t is d => Sys2Proof.Machine.execDmFree t is d s
  | .dmClr t is d => Sys2Proof.Machine.execDmClr t is d s
  | .dmLd t is d sg a fmt rm src tile => Sys2Proof.Machine.execDmLd t is d sg a fmt rm src tile s
  | .dmLdadd t is d sg a fmt rm src tile => Sys2Proof.Machine.execDmLdadd t is d sg a fmt rm src tile s
  | .dmDrain t is d sg gd gc => Sys2Proof.Machine.execDmDrain t is d sg gd gc s
  | .dmXout t is d sg a => Sys2Proof.Machine.execDmXout t is d sg a s
  | .dmXadd t is d sg a => Sys2Proof.Machine.execDmXadd t is d sg a s
  | .spCfg t is c => Sys2Proof.Machine.execSpCfg t is c s
  | .spLds t is ts k n => Sys2Proof.Machine.execSpLds t is ts k n s
  | .spLdsm t is sg a d => Sys2Proof.Machine.execSpLdsm t is sg a d s
  | .spMm t is d ts r swap => Sys2Proof.Machine.execSpMm t is d ts r swap s
  | .spDrop t is => Sys2Proof.Machine.execSpDrop t is s
  | .fillerWork t => Sys2Proof.Machine.execFillerWork t s
  | .fillRampStep t => Sys2Proof.Machine.execFillRampStep t s
  | .tuPtr t is p tile sg a fmt => Sys2Proof.Machine.execTuPtr t is p tile sg a fmt s
  | .tuProg t is slot sg a => Sys2Proof.Machine.execTuProg t is slot sg a s
  | .tuRun t is slot count hist => Sys2Proof.Machine.execTuRun t is slot count hist s
  | .tld t is d sg a r => Sys2Proof.Machine.execTld t is d sg a r s
  | .tst t is sg a tt r => Sys2Proof.Machine.execTst t is sg a tt r s
  | .tmv t is d ts r => Sys2Proof.Machine.execTmv t is d ts r s
  | .tmvVt t is d v h => Sys2Proof.Machine.execTmvVt t is d v h s
  | .tmvTv t is v ts h => Sys2Proof.Machine.execTmvTv t is v ts h s
  | .tclr t is d => Sys2Proof.Machine.execTclr t is d s
  | .twrTcfgn byHost t n v => Sys2Proof.Machine.execTwrTcfgn byHost t n v s
  | .vspan t d a fmt => Sys2Proof.Machine.execVspan t d a fmt s
  | .vadd t is o => Sys2Proof.Machine.execVadd t is o s
  | .vsub t is o => Sys2Proof.Machine.execVsub t is o s
  | .vmul t is o => Sys2Proof.Machine.execVmul t is o s
  | .vdiv t is o => Sys2Proof.Machine.execVdiv t is o s
  | .vsqrt t is o => Sys2Proof.Machine.execVsqrt t is o s
  | .vmin t is o => Sys2Proof.Machine.execVmin t is o s
  | .vmax t is o => Sys2Proof.Machine.execVmax t is o s
  | .vfma t is o => Sys2Proof.Machine.execVfma t is o s
  | .vfms t is o => Sys2Proof.Machine.execVfms t is o s
  | .vabs t is o => Sys2Proof.Machine.execVabs t is o s
  | .vneg t is o => Sys2Proof.Machine.execVneg t is o s
  | .vand t is o => Sys2Proof.Machine.execVand t is o s
  | .vor t is o => Sys2Proof.Machine.execVor t is o s
  | .vxor t is o => Sys2Proof.Machine.execVxor t is o s
  | .vsll t is o => Sys2Proof.Machine.execVsll t is o s
  | .vsrl t is o => Sys2Proof.Machine.execVsrl t is o s
  | .vsra t is o => Sys2Proof.Machine.execVsra t is o s
  | .vmv t is o => Sys2Proof.Machine.execVmv t is o s
  | .vmerge t is o => Sys2Proof.Machine.execVmerge t is o s
  | .vcmul t is o => Sys2Proof.Machine.execVcmul t is o s
  | .vcmac t is o => Sys2Proof.Machine.execVcmac t is o s
  | .vconj t is o => Sys2Proof.Machine.execVconj t is o s
  | .vredsum t is o => Sys2Proof.Machine.execVredsum t is o s
  | .vredmax t is o => Sys2Proof.Machine.execVredmax t is o s
  | .vredmin t is o => Sys2Proof.Machine.execVredmin t is o s
  | .vcmpeq t is o => Sys2Proof.Machine.execVcmpeq t is o s
  | .vcmplt t is o => Sys2Proof.Machine.execVcmplt t is o s
  | .vcmple t is o => Sys2Proof.Machine.execVcmple t is o s
  | .vcmpun t is o => Sys2Proof.Machine.execVcmpun t is o s
  | .vwmul t is o => Sys2Proof.Machine.execVwmul t is o s
  | .vwmacc t is o => Sys2Proof.Machine.execVwmacc t is o s
  | .vwdot t is o => Sys2Proof.Machine.execVwdot t is o s
  | .vcvt t is d a fmt rm m k => Sys2Proof.Machine.execVcvt t is d a fmt rm m k s
  | .vld t is o => Sys2Proof.Machine.execVld t is o s
  | .vlds t is o => Sys2Proof.Machine.execVlds t is o s
  | .vldx t is o => Sys2Proof.Machine.execVldx t is o s
  | .vst t is o => Sys2Proof.Machine.execVst t is o s
  | .vsts t is o => Sys2Proof.Machine.execVsts t is o s
  | .vstx t is o => Sys2Proof.Machine.execVstx t is o s
  | .vprobe t is form o => Sys2Proof.Machine.execVprobe t is form o s
  | .vmand t is d a b => Sys2Proof.Machine.execVmand t is d a b s
  | .vmor t is d a b => Sys2Proof.Machine.execVmor t is d a b s
  | .vmxor t is d a b => Sys2Proof.Machine.execVmxor t is d a b s
  | .vmnot t is d a => Sys2Proof.Machine.execVmnot t is d a s
  | .vmpopc t d a => Sys2Proof.Machine.execVmpopc t d a s
  | .vmfirst t d a => Sys2Proof.Machine.execVmfirst t d a s
  | .vext t d a b f => Sys2Proof.Machine.execVext t d a b f s
  | .vrel t is a => Sys2Proof.Machine.execVrel t is a s
  | .illegalInstruction c w => Sys2Proof.Machine.execIllegalInstruction c w s
  | .add c d a b f => Sys2Proof.Machine.execAdd c d a b f s
  | .sub c d a b f => Sys2Proof.Machine.execSub c d a b f s
  | .and c d a b f => Sys2Proof.Machine.execAnd c d a b f s
  | .or c d a b f => Sys2Proof.Machine.execOr c d a b f s
  | .xor c d a b f => Sys2Proof.Machine.execXor c d a b f s
  | .sll c d a b f => Sys2Proof.Machine.execSll c d a b f s
  | .srl c d a b f => Sys2Proof.Machine.execSrl c d a b f s
  | .sra c d a b f => Sys2Proof.Machine.execSra c d a b f s
  | .mul c d a b f => Sys2Proof.Machine.execMul c d a b f s
  | .mulh c d a b f => Sys2Proof.Machine.execMulh c d a b f s
  | .mulhu c d a b f => Sys2Proof.Machine.execMulhu c d a b f s
  | .div c d a b f => Sys2Proof.Machine.execDiv c d a b f s
  | .divu c d a b f => Sys2Proof.Machine.execDivu c d a b f s
  | .rem c d a b f => Sys2Proof.Machine.execRem c d a b f s
  | .remu c d a b f => Sys2Proof.Machine.execRemu c d a b f s
  | .min c d a b f => Sys2Proof.Machine.execMin c d a b f s
  | .max c d a b f => Sys2Proof.Machine.execMax c d a b f s
  | .minu c d a b f => Sys2Proof.Machine.execMinu c d a b f s
  | .maxu c d a b f => Sys2Proof.Machine.execMaxu c d a b f s
  | .adc c d a b f => Sys2Proof.Machine.execAdc c d a b f s
  | .sbc c d a b f => Sys2Proof.Machine.execSbc c d a b f s
  | .clz c d a f => Sys2Proof.Machine.execClz c d a f s
  | .ctz c d a f => Sys2Proof.Machine.execCtz c d a f s
  | .popc c d a f => Sys2Proof.Machine.execPopc c d a f s
  | .addi c d a imm => Sys2Proof.Machine.execAddi c d a imm s
  | .addiF c d a imm => Sys2Proof.Machine.execAddiF c d a imm s
  | .andi c d a imm => Sys2Proof.Machine.execAndi c d a imm s
  | .ori c d a imm => Sys2Proof.Machine.execOri c d a imm s
  | .xori c d a imm => Sys2Proof.Machine.execXori c d a imm s
  | .slli c d a n => Sys2Proof.Machine.execSlli c d a n s
  | .srli c d a n => Sys2Proof.Machine.execSrli c d a n s
  | .srai c d a n => Sys2Proof.Machine.execSrai c d a n s
  | .kset c d imm h => Sys2Proof.Machine.execKset c d imm h s
  | .kins c d imm h => Sys2Proof.Machine.execKins c d imm h s
  | .ld c d sg a size off up => Sys2Proof.Machine.execLd c d sg a size off up s
  | .st c d sg a size off => Sys2Proof.Machine.execSt c d sg a size off s
  | .fld c d sg a size off up => Sys2Proof.Machine.execFld c d sg a size off up s
  | .fst c d sg a size off => Sys2Proof.Machine.execFst c d sg a size off s
  | .bCond c cond off => Sys2Proof.Machine.execBCond c cond off s
  | .jal c off => Sys2Proof.Machine.execJal c off s
  | .j c off => Sys2Proof.Machine.execJ c off s
  | .jalr c d a => Sys2Proof.Machine.execJalr c d a s
  | .fadd c d a b rm dbl => Sys2Proof.Machine.execFadd c d a b rm dbl s
  | .fsub c d a b rm dbl => Sys2Proof.Machine.execFsub c d a b rm dbl s
  | .fmul c d a b rm dbl => Sys2Proof.Machine.execFmul c d a b rm dbl s
  | .fdiv c d a b rm dbl => Sys2Proof.Machine.execFdiv c d a b rm dbl s
  | .fsqrt c d a rm dbl => Sys2Proof.Machine.execFsqrt c d a rm dbl s
  | .frem c d a b dbl => Sys2Proof.Machine.execFrem c d a b dbl s
  | .fmin c d a b dbl => Sys2Proof.Machine.execFmin c d a b dbl s
  | .fmax c d a b dbl => Sys2Proof.Machine.execFmax c d a b dbl s
  | .fminnum c d a b dbl => Sys2Proof.Machine.execFminnum c d a b dbl s
  | .fmaxnum c d a b dbl => Sys2Proof.Machine.execFmaxnum c d a b dbl s
  | .frint c d a rm dbl => Sys2Proof.Machine.execFrint c d a rm dbl s
  | .frintx c d a rm dbl => Sys2Proof.Machine.execFrintx c d a rm dbl s
  | .fnextup c d a dbl => Sys2Proof.Machine.execFnextup c d a dbl s
  | .fnextdn c d a dbl => Sys2Proof.Machine.execFnextdn c d a dbl s
  | .fscaleb c d a b rm dbl => Sys2Proof.Machine.execFscaleb c d a b rm dbl s
  | .flogb c d a dbl => Sys2Proof.Machine.execFlogb c d a dbl s
  | .fneg c d a dbl => Sys2Proof.Machine.execFneg c d a dbl s
  | .fabs c d a dbl => Sys2Proof.Machine.execFabs c d a dbl s
  | .fsgnj c d a b dbl => Sys2Proof.Machine.execFsgnj c d a b dbl s
  | .fclass c d a dbl => Sys2Proof.Machine.execFclass c d a dbl s
  | .fcmp c a b dbl => Sys2Proof.Machine.execFcmp c a b dbl s
  | .fcmpe c a b dbl => Sys2Proof.Machine.execFcmpe c a b dbl s
  | .ftot c d a b dbl => Sys2Proof.Machine.execFtot c d a b dbl s
  | .ftotm c d a b dbl => Sys2Proof.Machine.execFtotm c d a b dbl s
  | .fcvtFf c d a rm dbl => Sys2Proof.Machine.execFcvtFf c d a rm dbl s
  | .fcvtIf c d a rm dbl x sgn w64 => Sys2Proof.Machine.execFcvtIf c d a rm dbl x sgn w64 s
  | .fcvtFi c d a rm dbl sgn w64 => Sys2Proof.Machine.execFcvtFi c d a rm dbl sgn w64 s
  | .fusedMulAdd c d a b cc rm dbl => Sys2Proof.Machine.execFusedMulAdd c d a b cc rm dbl s
  | .fusedMulSub c d a b cc rm dbl => Sys2Proof.Machine.execFusedMulSub c d a b cc rm dbl s
  | .fusedNegMulAdd c d a b cc rm dbl => Sys2Proof.Machine.execFusedNegMulAdd c d a b cc rm dbl s
  | .fusedNegMulSub c d a b cc rm dbl => Sys2Proof.Machine.execFusedNegMulSub c d a b cc rm dbl s
  | .mvGf c d a => Sys2Proof.Machine.execMvGf c d a s
  | .mvFg c d a => Sys2Proof.Machine.execMvFg c d a s
  | .mfcs c d n => Sys2Proof.Machine.execMfcs c d n s
  | .mtcs c n a => Sys2Proof.Machine.execMtcs c n a s
  | .qadd c d a b w lf => Sys2Proof.Machine.execQadd c d a b w lf s
  | .qsub c d a b w lf => Sys2Proof.Machine.execQsub c d a b w lf s
  | .qmul c d a b w lf => Sys2Proof.Machine.execQmul c d a b w lf s
  | .qfma c d a b w lf => Sys2Proof.Machine.execQfma c d a b w lf s
  | .qmin c d a b w lf => Sys2Proof.Machine.execQmin c d a b w lf s
  | .qmax c d a b w lf => Sys2Proof.Machine.execQmax c d a b w lf s
  | .qand c d a b w lf => Sys2Proof.Machine.execQand c d a b w lf s
  | .qor c d a b w lf => Sys2Proof.Machine.execQor c d a b w lf s
  | .qxor c d a b w lf => Sys2Proof.Machine.execQxor c d a b w lf s
  | .qcmul c d a b w lf => Sys2Proof.Machine.execQcmul c d a b w lf s
  | .qcmac c d a b w lf => Sys2Proof.Machine.execQcmac c d a b w lf s
  | .qconj c d a w lf => Sys2Proof.Machine.execQconj c d a w lf s
  | .qcmpeq c d a b w lf => Sys2Proof.Machine.execQcmpeq c d a b w lf s
  | .qcmplt c d a b w lf => Sys2Proof.Machine.execQcmplt c d a b w lf s
  | .qcmple c d a b w lf => Sys2Proof.Machine.execQcmple c d a b w lf s
  | .qcmpun c d a b w lf => Sys2Proof.Machine.execQcmpun c d a b w lf s
  | .qdup c d a w lf => Sys2Proof.Machine.execQdup c d a w lf s
  | .qswap c d a w lf => Sys2Proof.Machine.execQswap c d a w lf s
  | .bset x a off => Sys2Proof.Machine.execBset x a off s
  | .bclr x a off => Sys2Proof.Machine.execBclr x a off s
  | .btst c d a off => Sys2Proof.Machine.execBtst c d a off s
  | .btas c d a off => Sys2Proof.Machine.execBtas c d a off s
  | .bwait0 c a off tm => Sys2Proof.Machine.execBwait0 c a off tm s
  | .bwait1 c a off tm => Sys2Proof.Machine.execBwait1 c a off tm s
  | .bwaitTimeout c => Sys2Proof.Machine.execBwaitTimeout c s
  | .crr c d a off => Sys2Proof.Machine.execCrr c d a off s
  | .crw c a b off => Sys2Proof.Machine.execCrw c a b off s
  | .sld x n m a off => Sys2Proof.Machine.execSld x n m a off s
  | .sst c m a off n => Sys2Proof.Machine.execSst c m a off n s
  | .srd c d n part => Sys2Proof.Machine.execSrd c d n part s
  | .cwb c m a up => Sys2Proof.Machine.execCwb c m a up s
  | .cinv x m a => Sys2Proof.Machine.execCinv x m a s
  | .cwbi x m a => Sys2Proof.Machine.execCwbi x m a s
  | .cpf c m a => Sys2Proof.Machine.execCpf c m a s
  | .fence x => Sys2Proof.Machine.execFence x s
  | .isync c => Sys2Proof.Machine.execIsync c s
  | .waitQ t mask => Sys2Proof.Machine.execWaitQ t mask s
  | .qsync t dst mask => Sys2Proof.Machine.execQsync t dst mask s
  | .trap c imm => Sys2Proof.Machine.execTrap c imm s
  | .eret c => Sys2Proof.Machine.execEret c s
  | .done x => Sys2Proof.Machine.execDone x s
  | .halt c => Sys2Proof.Machine.execHalt c s
  | .nop c => Sys2Proof.Machine.execNop c s
  | .exceptionEntry t => Sys2Proof.Machine.execExceptionEntry t s
  | .interruptEntry t => Sys2Proof.Machine.execInterruptEntry t s
  | .watchdogExpiry t => Sys2Proof.Machine.execWatchdogExpiry t s
  | .sampleRecord t resp => Sys2Proof.Machine.execSampleRecord t resp s
  | .twrWdog t v => Sys2Proof.Machine.execTwrWdog t v s
  | .twrSmpCtrl t v => Sys2Proof.Machine.execTwrSmpCtrl t v s
  | .twrDoorbell t v => Sys2Proof.Machine.execTwrDoorbell t v s
  | .l1FillComplete c up => Sys2Proof.Machine.execL1FillComplete c up s
  | .storeBufferDrain c up => Sys2Proof.Machine.execStoreBufferDrain c up s
  | .writebackErrorResponse t line hostErr => Sys2Proof.Machine.execWritebackErrorResponse t line hostErr s
  | .stCopy t is k sd gd ss gs => Sys2Proof.Machine.execStCopy t is k sd gd ss gs s
  | .stShp t is k p q => Sys2Proof.Machine.execStShp t is k p q s
  | .stFill t is k sd gd gv => Sys2Proof.Machine.execStFill t is k sd gd gv s
  | .stSig t is k a off => Sys2Proof.Machine.execStSig t is k a off s
  | .streamDescriptorComplete t k => Sys2Proof.Machine.execStreamDescriptorComplete t k s
  | .requestCompletion t tag => Sys2Proof.Machine.execRequestCompletion t tag s
  | .memoryRequest t write lpa data ecc crcFails => Sys2Proof.Machine.execMemoryRequest t write lpa data ecc crcFails s
  | .deviceNotAnswering dev silent => Sys2Proof.Machine.execDeviceNotAnswering dev silent s
  | .deviceMigrationPage => Sys2Proof.Machine.execDeviceMigrationPage s
  | .driftTracking dev chan ok => Sys2Proof.Machine.execDriftTracking dev chan ok s
  | .scrubRead lpa ecc => Sys2Proof.Machine.execScrubRead lpa ecc s
  | .hostErrorCompletion t tag => Sys2Proof.Machine.execHostErrorCompletion t tag s
  | .hostWindowTimeout t tag => Sys2Proof.Machine.execHostWindowTimeout t tag s
  | .tableWalk t req acc walk => Sys2Proof.Machine.execTableWalk t req acc walk s
  | .faultRecordWrite resp => Sys2Proof.Machine.execFaultRecordWrite resp s
  | .fqResolveRetry id => Sys2Proof.Machine.execFqResolveRetry id s
  | .fqResolveAbort id => Sys2Proof.Machine.execFqResolveAbort id s
  | .xltCtrl v => Sys2Proof.Machine.execXltCtrl v s
  | .xltRootn n v => Sys2Proof.Machine.execXltRootn n v s
  | .invalidationGo v => Sys2Proof.Machine.execInvalidationGo v s
  | .invalidationComplete => Sys2Proof.Machine.execInvalidationComplete s
  | .xltPfreq t v => Sys2Proof.Machine.execXltPfreq t v s
  | .migratePage => Sys2Proof.Machine.execMigratePage s
  | .portTrainingComplete p partner pport bad => Sys2Proof.Machine.execPortTrainingComplete p partner pport bad s
  | .absentRetry p => Sys2Proof.Machine.execAbsentRetry p s
  | .linkFrame p f => Sys2Proof.Machine.execLinkFrame p f s
  | .ackTimeout p => Sys2Proof.Machine.execAckTimeout p s
  | .errorRateCheck p frames => Sys2Proof.Machine.execErrorRateCheck p frames s
  | .portRetrain p lanes => Sys2Proof.Machine.execPortRetrain p lanes s
  | .retrainComplete p => Sys2Proof.Machine.execRetrainComplete p s
  | .portDownHandover p accepted => Sys2Proof.Machine.execPortDownHandover p accepted s
  | .downRetry p => Sys2Proof.Machine.execDownRetry p s
  | .portLossNoSibling x => Sys2Proof.Machine.execPortLossNoSibling x s
  | .gwlPortRetire p => Sys2Proof.Machine.execGwlPortRetire p s
  | .packetRoute inDir pk => Sys2Proof.Machine.execPacketRoute inDir pk s
  | .read pk => Sys2Proof.Machine.execRead pk s
  | .write pk => Sys2Proof.Machine.execWrite pk s
  | .data pk => Sys2Proof.Machine.execData pk s
  | .accept pk => Sys2Proof.Machine.execAccept pk s
  | .refused pk => Sys2Proof.Machine.execRefused pk s
  | .error pk => Sys2Proof.Machine.execError pk s
  | .remoteTimeout t tag => Sys2Proof.Machine.execRemoteTimeout t tag s
  | .collUp m => Sys2Proof.Machine.execCollUp m s
  | .collDown m => Sys2Proof.Machine.execCollDown m s
  | .heldUpwardRelease slot => Sys2Proof.Machine.execHeldUpwardRelease slot s
  | .align pk kind now t1 t2 t3 parentRoll => Sys2Proof.Machine.execAlign pk kind now t1 t2 t3 parentRoll s
  | .smbusPacket op w x => Sys2Proof.Machine.execSmbusPacket op w x s
  | .smbusReply x => Sys2Proof.Machine.execSmbusReply x s
  | .smbusData x => Sys2Proof.Machine.execSmbusData x s
  | .keepAdmProd v => Sys2Proof.Machine.execKeepAdmProd v s
  | .keepAdmCtrl v => Sys2Proof.Machine.execKeepAdmCtrl v s
  | .adminReplyWrite resp => Sys2Proof.Machine.execAdminReplyWrite resp s
  | .ident p w => Sys2Proof.Machine.execIdent p w s
  | .modStatus p w => Sys2Proof.Machine.execModStatus p w s
  | .logRead p w => Sys2Proof.Machine.execLogRead p w s
  | .chanCreate p w => Sys2Proof.Machine.execChanCreate p w s
  | .chanDestroy p w => Sys2Proof.Machine.execChanDestroy p w s
  | .chanSet p w => Sys2Proof.Machine.execChanSet p w s
  | .chanAbort p w => Sys2Proof.Machine.execChanAbort p w s
  | .chanRing p w => Sys2Proof.Machine.execChanRing p w s
  | .chanQuery p w => Sys2Proof.Machine.execChanQuery p w s
  | .capSet p w => Sys2Proof.Machine.execCapSet p w s
  | .energyQuery p w => Sys2Proof.Machine.execEnergyQuery p w s
  | .rollReport p w => Sys2Proof.Machine.execRollReport p w s
  | .migrate p w => Sys2Proof.Machine.execMigrate p w s
  | .collBind p w => Sys2Proof.Machine.execCollBind p w s
  | .collUnbind p w => Sys2Proof.Machine.execCollUnbind p w s
  | .fwStage p w => Sys2Proof.Machine.execFwStage p w s
  | .fwStageDone flashOk => Sys2Proof.Machine.execFwStageDone flashOk s
  | .fwActivate p w => Sys2Proof.Machine.execFwActivate p w s
  | .attest p w => Sys2Proof.Machine.execAttest p w s
  | .attestSigned => Sys2Proof.Machine.execAttestSigned s
  | .relayout p w => Sys2Proof.Machine.execRelayout p w s
  | .unretire p w => Sys2Proof.Machine.execUnretire p w s
  | .reset p w => Sys2Proof.Machine.execReset p w s
  | .keepDbn n v => Sys2Proof.Machine.execKeepDbn n v s
  | .descriptorConsume n resp => Sys2Proof.Machine.execDescriptorConsume n resp s
  | .keepCfg v => Sys2Proof.Machine.execKeepCfg v s
  | .contextSave x => Sys2Proof.Machine.execContextSave x s
  | .contextRestore t err => Sys2Proof.Machine.execContextRestore t err s
  | .towerSelfTest t r => Sys2Proof.Machine.execTowerSelfTest t r s
  | .monitorSample region slack short => Sys2Proof.Machine.execMonitorSample region slack short s
  | .leaderOverrunWatchdog => Sys2Proof.Machine.execLeaderOverrunWatchdog s
  | .moduleFault => Sys2Proof.Machine.execModuleFault s
  | .telemetryRecord => Sys2Proof.Machine.execTelemetryRecord s
  | .eventRecordProgram => Sys2Proof.Machine.execEventRecordProgram s
  | .flashRecordProgram => Sys2Proof.Machine.execFlashRecordProgram s
  | .thermalGuard region temp => Sys2Proof.Machine.execThermalGuard region temp s
  | .thermTrip temp => Sys2Proof.Machine.execThermTrip temp s
  | .deviceOverheat dev temp => Sys2Proof.Machine.execDeviceOverheat dev temp s
  | .pwrAlertAssert => Sys2Proof.Machine.execPwrAlertAssert s
  | .pwrAlertDeassert => Sys2Proof.Machine.execPwrAlertDeassert s
  | .droopStretch region mv => Sys2Proof.Machine.execDroopStretch region mv s
  | .droopStretchEnd region x => Sys2Proof.Machine.execDroopStretchEnd region x s
  | .pwrFill v => Sys2Proof.Machine.execPwrFill v s
  | .pwrDroopCfg v => Sys2Proof.Machine.execPwrDroopCfg v s
  | .memCfg v => Sys2Proof.Machine.execMemCfg v s
  | .powerUpReset env => Sys2Proof.Machine.execPowerUpReset env s
  | .readyAssert ms => Sys2Proof.Machine.execReadyAssert ms s
  | .pwrGoodFall => Sys2Proof.Machine.execPwrGoodFall s
  | .bootWatchdog => Sys2Proof.Machine.execBootWatchdog s
  | .hstReset v => Sys2Proof.Machine.execHstReset v s
  | .identityResponderTakeover => Sys2Proof.Machine.execIdentityResponderTakeover s
  | .tapExtest => Sys2Proof.Machine.execTapExtest s
  | .tapClamp => Sys2Proof.Machine.execTapClamp s
  | .tapBypass => Sys2Proof.Machine.execTapBypass s
  | .tapIdcode => Sys2Proof.Machine.execTapIdcode s
  | .tapSamplePreload => Sys2Proof.Machine.execTapSamplePreload s
  | .hostRead lpa n => Sys2Proof.Machine.execHostRead lpa n s
  | .hostWrite lpa bytes => Sys2Proof.Machine.execHostWrite lpa bytes s
  | .ucieModuleDown n => Sys2Proof.Machine.execUcieModuleDown n s
  | .ucieRetrainRetry n x => Sys2Proof.Machine.execUcieRetrainRetry n x s
  | .hstIrqEoi v => Sys2Proof.Machine.execHstIrqEoi v s
  | .registerWrite lpa size v => Sys2Proof.Machine.execRegisterWrite lpa size v s
  | .portAbsent p => Sys2Proof.Machine.execPortAbsent p s
  | .smbusPacketAnswered => Sys2Proof.Machine.execSmbusPacketAnswered s

end Sys2Proof.Machine
end

