-- ==== Sys2Proof/Machine/Tick.lean ====
section
/-! DEFINITION. One reference-clock cycle on an empty queue (log entry 1). -/

namespace Sys2Proof.Machine

/-- A Tower over one rc: the interval timer counts while a step runs (R331), and the engines go on with their queues, after a
preemption with what they have under way. -/
def State.tickTower (s : State) (t : Nat) : State :=
  if s.enginesOn t then (s.modTw t (fun w => { w with timer := w.timer - 1 })).enginesGo t
  else if (s.tw t).run = .saving then s.enginesGo t
  else s

/-- `ROLL_PHASE` counts the rc of the roll (R45, R67); the boundary itself is a command of its own. -/
def tick (s : State) : State :=
  if s.boot.power = false then s
  else
    let s := s.setF Reg.rollPhasePhase (min (s.f Reg.rollPhasePhase + 1) (s.roll.len - 1))
    if s.alive then overList (s.towers.map (·.1)) (fun t s => s.tickTower t) s else s

end Sys2Proof.Machine
end

