-- ==== Sys2Proof/Safety.lean ====
section
/-! DEFINITION. What counts as a safe state, in the terms statements use. -/

namespace Sys2Proof

/-- Both memories are in canonical form, so that equal contents are equal data, and the tables that are read by key have
their keys rising. -/
def Safety.canonical (s : Machine.State) : Prop :=
  Machine.Memory.wf s.mem = true ∧ Machine.Memory.wf s.hostMem = true ∧ Machine.Tab.sortedFrom 0 s.regs = true ∧
  Machine.Tab.sortedFrom 0 s.bad = true ∧ Machine.Tab.sortedFrom 0 s.badWords = true ∧
  Machine.Tab.sortedFrom 0 s.steps = true ∧ Machine.Tab.sortedFrom 0 s.dev.silent = true

end Sys2Proof
end

