-- ==== Sys2Proof/WellFormed.lean ====
section
/-! DEFINITION. Which commands the hardware can be sent: the operands that a type of Syntax.lean is too wide for. The
meanings are total and act on an ill-formed command as their text says; no rule speaks of one. -/

namespace Sys2Proof

/-- A port of Gwearo, 0 to 17 (R407). -/
def portOk (p : BitVec 5) : Bool := decide (p.toNat < 18)

/-- A memory device, 0 to 23 (R358). -/
def deviceOk (d : BitVec 5) : Bool := decide (d.toNat < 24)

/-- Data slots of 16 bytes, at most four (R419). -/
def packetOk (k : Packet) : Bool := decide (k.data.length % 16 = 0) && decide (k.data.length ≤ 64)

/-- A frame of 15 slots (R411). -/
def frameOk (f : Frame) : Bool := decide (f.slots.length = 15)

/-- A reading of every sensor (R488), answers named once for accesses that exist. -/
def sampleOk (e : Sample) : Bool := decide (e.temps.length = 32) && decide (e.phy.length = 8) && decide (e.memTemps.length = 24)
  && e.cqAnswers.all (fun x => decide (x.1.1 < 16384) && decide (x.1.2 < 65536))
  && e.smpAnswers.all (fun x => decide (x.1 < 128))

/-- Four Towers of a region, each with the slacks of its eight monitors at eight operating points; a slack that grows with the
voltage (R518). -/
def planOk (p : MarginPlan) : Bool :=
  decide (p.slack.length = 4)
    && p.slack.all (fun w => decide (w.length = 8) && w.all (fun o => decide (o.length = 8)))
    && decide (p.slope.length = 8) && p.slope.all (fun n => decide (0 < n))

/-- A plan for each region, identities and coefficients of all devices, devices named once, four UCIe modules, and headers of the
images (R367, R518, R532, R553). -/
def envOk (e : BootEnv) : Bool :=
  decide (e.plan.length = 32) && e.plan.all planOk && decide (e.ucie.length = 4)
  && decide (e.imageA.head.length = 0xA00) && decide (e.imageB.head.length = 0xA00) && e.devFail.all deviceOk && e.devFail.dedup.length == e.devFail.length
  && decide (e.devIdent.length = 24) && decide (e.devCoeff.length = 24) && e.coeffBad.all deviceOk

/-- Bytes of one host-die write (R533). -/
def bytesOk (bs : List Byte) : Bool := decide (1 ≤ bs.length) && decide (bs.length ≤ 256)

def wellFormed : Instr → Bool
  | .rollBoundary env => sampleOk env
  | .powerUpReset env => envOk env
  | .memoryRequest _ write lpa data _ _ =>
    decide (1 ≤ data.length) && decide (lpa.toNat % 64 + data.length ≤ 64) && (write || decide (data.length ≤ 64))
  | .deviceNotAnswering d _ => deviceOk d
  | .driftTracking d _ _ => deviceOk d
  | .deviceOverheat d _ => deviceOk d
  | .portTrainingComplete p _ q _ => portOk p && portOk q
  | .absentRetry p => portOk p
  | .linkFrame p f => portOk p && frameOk f
  | .ackTimeout p => portOk p
  | .errorRateCheck p _ => portOk p
  | .portRetrain p lanes => portOk p && decide (lanes.corr.length = 8)
  | .retrainComplete p => portOk p
  | .portDownHandover p _ => portOk p
  | .downRetry p => portOk p
  | .portLossNoSibling x => portOk x.port
  | .gwlPortRetire p => portOk p
  | .portAbsent p => portOk p
  | .packetRoute d pk => decide (d.toNat < 7) && packetOk pk
  | .read pk => packetOk pk
  | .write pk => packetOk pk
  | .data pk => packetOk pk
  | .accept pk => packetOk pk
  | .refused pk => packetOk pk
  | .error pk => packetOk pk
  | .align pk kind _ _ _ _ _ => packetOk pk && (match kind with | .request p => portOk p | .reply => true)
  | .monitorSample _ slack short => decide (slack.length = 32) && decide (short.length = 32)
  | .droopStretchEnd _ x => decide (x.mv.length = 4)
  | .hostRead _ n => decide (1 ≤ n) && decide (n ≤ 256)
  | .hostWrite _ bytes => bytesOk bytes
  | .registerWrite lpa _ _ => decide (lpa.toNat % 8 = 0) && decide (0x1F0000000000 ≤ lpa.toNat)
  | _ => true

end Sys2Proof
end

