-- ==== Sys2Proof/Certificates/Slice0/Obligations.lean ====
section
/-! DEFINITION. The statements for the provers, and the words they share. -/

/-! Words that the statements share. -/

namespace Sys2Proof.Says

open Machine

/-- From `s` to `t` nothing changed but core `c` and, where it is a Tower's, that Tower's count of completed
instructions, which is one higher (R336). -/
def Retired (c : CoreId) (s t : State) : Prop := t = (s.setCore c (t.core c)).countInst c

/-- Register gD holds `v` unless it is g0, and every other g register holds what it held (R259). -/
def WritesG (k k' : Core) (d : GReg) (v : Dword) : Prop :=
  ∀ r, k'.getG r = if r = d ∧ r ≠ 0 then v else k.getG r

/-- Register qD holds `v`, and every other q register holds what it held. -/
def WritesQ (k k' : Core) (d : GReg) (v : Qword) : Prop :=
  ∀ r, k'.getQ r = if r = d then v else k.getQ r

/-- The command completes on core `c` with `v` in gD, `fl` in `flags`, `fp` in `fpcsr` and the pc at the next word; nothing
else changes. -/
def GivesG (i : Instr) (c : CoreId) (s : State) (d : GReg) (v fl fp : Dword) : Prop :=
  ∃ t, exec i s = .next t ∧ Retired c s t ∧ WritesG (s.core c) (t.core c) d v
    ∧ t.core c = { s.core c with
        g := (t.core c).g, flags := fl, fpcsr := fp, pc := (s.core c).pc + 4, wait := .none }

/-- The command completes on core `c` with `v` in qD, `fp` in `fpcsr` and the pc at the next word; nothing else changes. -/
def GivesQ (i : Instr) (c : CoreId) (s : State) (d : GReg) (v : Qword) (fp : Dword) : Prop :=
  ∃ t, exec i s = .next t ∧ Retired c s t ∧ WritesQ (s.core c) (t.core c) d v
    ∧ t.core c = { s.core c with q := (t.core c).q, fpcsr := fp, pc := (s.core c).pc + 4, wait := .none }

/-- The command completes on core `c` with `v` in fD, which leaves bits [127:64] of qD (R260), and `fp` in `fpcsr`. -/
def GivesF (i : Instr) (c : CoreId) (s : State) (d : GReg) (v fp : Dword) : Prop :=
  GivesQ i c s d (((s.core c).getQ d).extractLsb' 64 64 ++ v) fp

/-- The command completes on core `c`, which goes on as `k`; nothing else changes. -/
def GivesCore (i : Instr) (c : CoreId) (s : State) (k : Core) : Prop :=
  ∃ t, exec i s = .next t ∧ Retired c s t ∧ t.core c = k

/-- The flags an ALU instruction leaves: with F = 1 N and Z of the result, the C and V given, and S takes V (R261, R266). -/
def aluFlagsOf (f : Bool) (old r : Dword) (cy ov : Bool) : Dword :=
  if f then setFlags old r.msb (decide (r = 0)) cy ov else old

/-- What an ALU instruction gives: its result, C and V. -/
def GivesAlu (i : Instr) (c : CoreId) (s : State) (d : GReg) (f : Bool) (r : Dword) (cy ov : Bool) : Prop :=
  GivesG i c s d r (aluFlagsOf f (s.core c).flags r cy ov) (s.core c).fpcsr

/-- From `s` to `t` core `c`, which held `k`, takes the exception of cause `cause` as R298 says: cause, address and resume
offset recorded, H set, and the pc at the handler, 64 bytes to each cause from BASE. -/
def EntersFrom (k : Core) (c : CoreId) (s t : State) (engine sub cause : Nat) (eaddr epc : Dword) : Prop :=
  t = s.setCore c { k with
    ecause := BitVec.ofNat 64 (engine * 65536 + sub * 256 + cause), eaddr := eaddr, epc := epc,
    estat := setBit k.estat 0 true, pc := BitVec.ofNat 64 (fld k.evec 63 12 * 4096 + 64 * cause),
    wait := .none, loop := .idle }

/-- The same from the core as it stands. -/
def Enters (c : CoreId) (s t : State) (engine sub cause : Nat) (eaddr epc : Dword) : Prop :=
  EntersFrom (s.core c) c s t engine sub cause eaddr epc

/-- The core can take an exception: its vectors are on and no handler runs (R298). -/
def CanTrap (c : CoreId) (s : State) : Prop := bit (s.core c).evec 0 = true ∧ bit (s.core c).estat 0 = false

/-- The bytes of this module's memory at the FPAs from `fpa` on. -/
def memAt (s : State) (fpa n : Nat) : List Byte := (List.range n).map (fun j => Tab.get 0 s.mem ((fpa + j) % 2 ^ 45))

/-- Every byte from `fpa` on lies in this module's own memory, not in a hole, in the host window or in another module, and
reads and writes there meet no error (R32, R349, R360). -/
def Sound (s : State) (fpa n : Nat) : Prop :=
  fpa % 2 ^ 45 + n ≤ 2 ^ 45 ∧ s.place fpa ≠ .hole ∧ (∀ j < n, s.later (fpa + j) = false) ∧
  ∀ p ∈ granules (fpa % 2 ^ 45) n, s.unreadable p.1 p.2 = false

/-- A Tower's tracker is empty, and nothing waits for an entry of it. -/
def NoRequests (w : Tower) : Prop := w.track = [] ∧ w.starved = []

/-- The core has nothing buffered, filled, evicted or awaited. -/
def Quiet (c : CoreId) (s : State) : Prop :=
  (s.core c).sbuf = [] ∧ (s.core c).fill = none ∧ (s.core c).victim = none ∧ NoRequests (s.tw (trackIdx c))

/-- A machine check of Tower `u`: MCHK is set, its step is struck, and it issues nothing more (R158, R505). -/
def MachineChecked (u : TId) (s t : State) : Prop :=
  t.f (Reg.twrStatMchk u.toNat) = 1 ∧ (t.tw u.toNat).run = .stopped ∧ t.mem = s.mem ∧
  ∀ k st, s.stepOf u.toNat = some (k, st) → Tab.find t.steps k = some { st with struck := true } ∧
    ∀ v ∈ st.towers, (t.tw v).run ≠ .running

/-- No line of the core's L1 is dirty. -/
def AllClean (k : Core) : Prop := ∀ i e, Tab.find k.l1 i = some e → e.dirty = false

/-- From `s` to `t` every register is unchanged, but a Tower's count of completed instructions and the greatest number of
its tracker entries in use (R336, R371). -/
def CountsOnly (c : CoreId) (s t : State) : Prop :=
  ∀ a, (∀ u, c = .tower u → a ≠ (Reg.twrInstretInstret u.toNat).addr ∧ a ≠ (Reg.accTrkHigh u.toNat).addr) → t.rd a = s.rd a

/-- An access of `n` bytes at offset `o` passes its checks and lies in one piece, from `fpa` on, at the DVA `dva`. -/
def OnePiece (c : CoreId) (s : State) (g : Seg) (acc : Access) (o n fpa dva : Nat) : Prop :=
  s.coreResolve c g acc o n = (.ok [⟨fpa, n, dva⟩], s)

/-- An uncached access of `n` bytes at offset `o` finds `bs` in memory (R309, policy 3 of R271). -/
def FindsUncached (c : CoreId) (s : State) (g : Seg) (o n : Nat) (bs : List Byte) : Prop :=
  ∃ fpa dva, g.policy = 3 ∧ OnePiece c s g .read o n fpa dva ∧ Sound s fpa n ∧ bs = memAt s fpa n

/-- A cached access of `n` bytes at offset `o`, within one line that the L1 holds, finds `bs` there. -/
def FindsCached (c : CoreId) (s : State) (g : Seg) (o n : Nat) (bs : List Byte) : Prop :=
  ∃ fpa dva i e, g.policy ≠ 3 ∧ OnePiece c s g .read o n fpa dva ∧ 0 < n ∧ fpa % 64 + n ≤ 64 ∧
    (s.core c).l1Line (fpa / 64) = some (i, e) ∧ bs = (e.data.drop (fpa % 64)).take n

/-- A load changes only registers of its core, its own bookkeeping in the L1's order of use and the tracker, and the
Tower's count of completed instructions. -/
def LoadKeeps (c : CoreId) (s t : State) : Prop :=
  t.mem = s.mem ∧ t.hostMem = s.hostMem ∧ t.shared = s.shared ∧ t.steps = s.steps ∧ t.chans = s.chans ∧
  CountsOnly c s t ∧
  t.core c = { s.core c with g := (t.core c).g, q := (t.core c).q, segs := (t.core c).segs, plru := (t.core c).plru,
                             pc := (s.core c).pc + 4, wait := .none }

/-- A line of the L1 that goes to memory when the core publishes: it is dirty, or a buffered write-back store makes it so. -/
def GoesBack (k : Core) (e : L1Line) : Prop :=
  e.dirty = true ∨ ∃ x ∈ k.sbuf, x.policy = 0 ∧ ∃ p ∈ x.pieces, p.fpa / 64 = e.line

/-- What the core holds back can all be sent: buffered stores of at most 16 bytes, uncached, written through, or to a line
that the L1 holds, and dirty lines, all of them in memory that answers. -/
def Flushable (c : CoreId) (s : State) : Prop :=
  let k := s.core c
  k.victim = none ∧ k.fill = none ∧ NoRequests (s.tw (trackIdx c)) ∧ Memory.wf s.mem = true ∧
  (∀ i e, Tab.find k.l1 i = some e → k.l1Line e.line = some (i, e) ∧
    (GoesBack k e → e.data.length = 64 ∧ Sound s (e.line * 64) 64)) ∧
  ∀ x ∈ k.sbuf, ∃ fpa dva, x.pieces = [⟨fpa, x.bytes.length, dva⟩] ∧ 0 < x.bytes.length ∧ x.bytes.length ≤ 16 ∧
    Sound s fpa x.bytes.length ∧
    (x.policy = 1 ∨ x.policy = 3 ∨
      (x.policy = 0 ∧ fpa % 64 + x.bytes.length ≤ 64 ∧ k.l1Line (fpa / 64) ≠ none))

/-- The byte that the youngest buffered store to an LPA puts there. -/
def storeByte (k : Core) (x : Nat) : Option Byte :=
  (k.sbuf.filterMap (fun e => e.pieces.head?.bind (fun p =>
    let a := p.fpa % 2 ^ 45
    if a ≤ x ∧ x < a + p.len then some (e.bytes.getD (x - a) 0) else none))).getLast?

/-- From `s` to `t` core `c` has published its stores (R319): nothing is buffered and no line dirty, and every byte of memory
is what the youngest store to it gave, else what a line that went back held, else what it was. -/
def Flushed (c : CoreId) (s t : State) : Prop :=
  let k := s.core c
  let covers := fun (e : L1Line) (x : Nat) => e.line * 64 % 2 ^ 45 ≤ x ∧ x < e.line * 64 % 2 ^ 45 + 64
  (t.core c).sbuf = [] ∧ (∀ i e, Tab.find (t.core c).l1 i = some e → e.dirty = false) ∧ t.hostMem = s.hostMem ∧
  ∀ x, (∀ b, storeByte k x = some b → Tab.get 0 t.mem x = b) ∧
    (storeByte k x = none →
      (∀ i e, Tab.find k.l1 i = some e → GoesBack k e → covers e x →
        Tab.get 0 t.mem x = e.data.getD (x - e.line * 64 % 2 ^ 45) 0) ∧
      ((∀ i e, Tab.find k.l1 i = some e → GoesBack k e → ¬ covers e x) → Tab.get 0 t.mem x = Tab.get 0 s.mem x))

/-- The core as it waits at an instruction, which executes again when it is sent again (the model's convention, log
entry 8). -/
def waitsAt (k : Core) (w : Wait) (i : Instr) : Core := { k with wait := w, waitAt := encode i }

/-- The bytes at LPAs `lpa` on are `bs` in `t`, and every other byte of this module's memory is as in `s`. -/
def Stored (s t : State) (lpa : Nat) (bs : List Byte) : Prop :=
  ∀ x, Tab.get 0 t.mem x = if lpa ≤ x ∧ x < lpa + bs.length then bs.getD (x - lpa) 0 else Tab.get 0 s.mem x

/-- The engines of a Tower hold no instruction: six queues and the stream slots empty. -/
def EnginesIdle (w : Tower) : Prop :=
  w.qVec = [] ∧ w.qSpr = [] ∧ w.qDom = [] ∧ w.qTur = [] ∧ w.qTile = [] ∧ w.qStr = [] ∧ w.slots = []

/-- The core after an instruction that changes nothing but the pc. -/
def passed (k : Core) : Core := { k with pc := k.pc + 4, wait := .none }

/-- The step of Tower `u` ends as a program error: it is marked so, and none of its Towers runs on. -/
def EndsStep (u : Nat) (s t : State) : Prop :=
  ∀ k st, s.stepOf u = some (k, st) → (∃ st', Tab.find t.steps k = some st' ∧ st' = { st with progErr := true }) ∧
    ∀ v ∈ st.towers, (t.tw v).run ≠ .running

/-- The entry that an engine instruction puts into its queue: position in the Tower's order of pushes, the instruction, the
segments it names and the registers it captures, vector length and format (R166, R278). -/
def entryOf (i : Instr) (u : TId) (segs : List R3) (gs : List GReg) (q : GReg) (s : State) : QEntry :=
  let k := s.core (.tower u)
  ⟨(s.tw u.toNat).serial, .insn i, segs.map (fun r => (r.toNat, k.getS r)), gs.map k.getG, k.getQ q,
    s.f (Reg.vecSpanVl u.toNat), s.f (Reg.vecSpanFmt u.toNat), decide (s.f (Reg.vecSpanFmtBad u.toNat) = 1), .due⟩

/-- The state once the core has pushed the instruction and gone on: the entry stands at the end of its queue. -/
def issued (i : Instr) (u : TId) (e : Eng) (segs : List R3) (gs : List GReg) (q : GReg) (s : State) : State :=
  let s' := s.modTw u.toNat (fun w =>
    { w.setQueue e (w.queue e ++ [entryOf i u segs gs q s]) with serial := w.serial + 1 })
  s'.retire (.tower u) (s'.core (.tower u))

/-- How an engine instruction issues: it is pushed and the core goes on; a full queue stalls the core (R24, R25); where its
engine's queue is empty and it is to be carried through, the engine then runs; an error that it meets there in a structure it
reads is a machine check (R158, R505). -/
def IssuesAs (i : Issue → Instr) (u : TId) (e : Eng) (segs : List R3) (gs : List GReg) (q : GReg) (s : State) : Prop :=
  let n := ((s.tw u.toNat).queue e).length
  (n < 32 → exec (i .push) s = .next (issued (i .push) u e segs gs q s)) ∧
  (32 ≤ n → exec (i .push) s = .next (s.setCore (.tower u) (waitsAt (s.core (.tower u)) .queueFull (i .push)))) ∧
  (n = 0 → exec (i .whole) s = .next ((issued (i .whole) u e segs gs q s).engGo u.toNat e)) ∧
  (∀ p, n = 0 → e ≠ .str → (s.tw u.toNat).stop e = .running → e.meets (i (.upset p)) p = true →
    exec (i (.upset p)) s = .next ((issued (i (.upset p)) u e segs gs q s).machineCheck (.tower u) (partRow p) 0))

/-- The engine is free: its Tower issues, its queue is empty, nothing of it is under way, and no error or fault has stopped
it. -/
def FreeEngine (u : TId) (e : Eng) (s : State) : Prop :=
  s.issuing (.tower u) = true ∧ (s.tw u.toNat).queue e = [] ∧ (s.tw u.toNat).stop e = .running ∧
  (s.tw u.toNat).plans = [] ∧ (s.tw u.toNat).turPart = none

/-- The engine instruction completes: the core goes on, the queue is empty again, no other Tower changes. -/
def Completes (i : Instr) (u : TId) (e : Eng) (s t : State) : Prop :=
  exec i s = .next t ∧ t.core (.tower u) = passed (s.core (.tower u)) ∧ (t.tw u.toNat).queue e = [] ∧
  (∀ v, v ≠ u.toNat → t.tw v = s.tw v) ∧ t.hostMem = s.hostMem ∧ t.steps = s.steps ∧ t.shared = s.shared

/-- The state `s'` differs from `s` at most in Tower `u`'s core, queues and engines and in the registers that its core's and
engines' progress counts in: not in memory, not in what translation and the tracker hold. -/
def Around (u : TId) (s s' : State) : Prop :=
  let n := u.toNat
  let a := s.tw n
  let b := s'.tw n
  s' = { s with regs := s'.regs, towers := s'.towers } ∧ (∀ v, v ≠ n → s'.tw v = s.tw v) ∧
  b.tlbs = a.tlbs ∧ b.l2 = a.l2 ∧ b.l2keep = a.l2keep ∧ b.walkCache = a.walkCache ∧ b.walks = a.walks ∧ b.run = a.run ∧
  b.step = a.step ∧ b.rank = a.rank ∧
  ∀ r, r ∉ [Reg.accTrk n, Reg.twrInstret n, Reg.twrTstart n] → s'.rd r = s.rd r

/-- A range of `n` bytes that an engine reaches at one run of FPAs, without a walk, whatever its Tower's engines do
meanwhile, in memory that answers without error. -/
def Reaches (s : State) (u : TId) (tlb : Nat) (g : Seg) (acc : Access) (o n fpa : Nat) : Prop :=
  0 < n ∧ Sound s fpa n ∧ NoRequests (s.tw u.toNat) ∧
  ∃ dva, ∀ s', Around u s s' → s'.resolve u.toNat tlb g acc o n = (.ok [⟨fpa, n, dva⟩], s')

/-- Bytes of a tile register (R205). -/
def tileAtRow (w : Tower) (tile row byte n : Nat) : List Byte :=
  (List.range n).map (fun j => Tab.get 0 w.tiles (tile * 32768 + row * 256 + byte + j))

/-- The vector unit is free, its format is `f` and no bad format was asked for. -/
def VectorReady (u : TId) (f : Fmt) (s : State) : Prop :=
  FreeEngine u .vec s ∧ fmtOfCode (s.f (Reg.vecSpanFmt u.toNat)) = some f ∧ s.f (Reg.vecSpanFmtBad u.toNat) = 0

/-- Operand B of element `j`: the element of vB, or a scalar that the core gave, converted once (R239). -/
def operandB (u : TId) (o : VArith) (f : Fmt) (s : State) (j : Nat) : Nat :=
  let k := s.core (.tower u)
  if o.sc then match fmtKind f with
    | .float F => (toFloat .b64 F (rmResolve .dyn (s.f (Reg.vecFpcsrRm u.toNat))) (s.fb (Reg.vecModeP16inf u.toNat))
        (FFmt.dec .b64 ((k.getQ o.b).toNat % 2 ^ 64))).1
    | .int I => (k.getG o.b).toNat % 2 ^ I.bits
    | .cplx F => (k.getQ o.b).toNat % 2 ^ (2 * F.width)
  else (((s.tw u.toNat).vElems o.b.toNat f (s.f (Reg.vecSpanVl u.toNat)))[j]?).getD 0

/-- Element `j` of a vector register, and whether the mask admits it (R232). -/
def element (w : Tower) (r : GReg) (f : Fmt) (vl j : Nat) : Nat := ((w.vElems r.toNat f vl)[j]?).getD 0
def admits (w : Tower) (m : Bool) (k : R3) (j : Nat) : Bool := !m || w.mbit k.toNat j

/-- Of the vector unit's registers only those of vD changed, and among the elements of `g` there below VL those that the
rule gives a value: `new j` is the value of element `j`, none where it keeps its own. -/
def WritesElements (u : TId) (d : GReg) (g : Fmt) (n : Nat) (new : Nat → Option Nat) (s t : State) : Prop :=
  t.mem = s.mem ∧ (t.tw u.toNat).masks = (s.tw u.toNat).masks ∧ (t.tw u.toNat).tiles = (s.tw u.toNat).tiles ∧
  (∀ j < n, element (t.tw u.toNat) d g n j
    = match new j with | some v => v % 2 ^ fmtBits g | none => element (s.tw u.toNat) d g n j) ∧
  ∀ x, ¬ (d.toNat * 16384 ≤ x ∧ x < d.toNat * 16384 + elemBytes (fmtBits g) n) →
    Tab.get 0 (t.tw u.toNat).vregs x = Tab.get 0 (s.tw u.toNat).vregs x

/-- The flags of the one conversion of a scalar operand B to a floating format (R239). -/
def scalarFlags (u : TId) (o : VArith) (f : Fmt) (s : State) : Fl :=
  match o.sc, fmtKind f with
  | true, .float F => if s.f (Reg.vecSpanVl u.toNat) = 0 then {} else
    (toFloat .b64 F (rmResolve .dyn (s.f (Reg.vecFpcsrRm u.toNat))) (s.fb (Reg.vecModeP16inf u.toNat))
      (FFmt.dec .b64 (((s.core (.tower u)).getQ o.b).toNat % 2 ^ 64))).2
  | _, _ => {}

/-- The vector unit has recorded the flags of a list of results: each stands in `VEC_FPCSR` if it stood there or some result
raised it, and every saturation counts (R86, R107, R238). -/
def RecordsFlags (u : TId) (l : List Fl) (s t : State) : Prop :=
  (∀ j < 64, bit (t.rd (Reg.vecFpcsr u.toNat)) j
    = (bit (s.rd (Reg.vecFpcsr u.toNat)) j || l.any (fun f => f.bits.testBit j))) ∧
  t.f (Reg.vecSatCntCount u.toNat) = min (s.f (Reg.vecSatCntCount u.toNat) + (l.map (·.sat)).sum)
    (2 ^ ((Reg.vecSatCntCount u.toNat).hi + 1 - (Reg.vecSatCntCount u.toNat).lo) - 1)

/-- Of the vector unit's registers only the bits of mask mD below VL changed, as the rule says. -/
def WritesMask (u : TId) (d : Nat) (n : Nat) (new : Nat → Option Bool) (s t : State) : Prop :=
  t.mem = s.mem ∧ (t.tw u.toNat).vregs = (s.tw u.toNat).vregs ∧
  ∀ m j, j < 32768 → (t.tw u.toNat).mbit m j = if m = d ∧ j < n then (new j).getD ((s.tw u.toNat).mbit m j) else (s.tw u.toNat).mbit m j


/-- A descriptor of one row of `n` bytes whose destination lies in one 64 KiB page. -/
def OneRow (shq : Dword) (g : Seg) (o n : Nat) : Prop :=
  fld shq 47 32 = 0 ∧ fld shq 23 0 + 1 = n ∧ (g.base + o) % 65536 + n ≤ 65536

/-- The bytes of a fill: byte x of the address space takes byte x[2:0] of the value (R341). -/
def filled (v : Dword) (adr n : Nat) : List Byte := (List.range n).map (fun j => v.extractLsb' (8 * ((adr + j) % 8)) 8)

/-- The step of Tower `u` is struck: it is marked so, and none of its Towers runs on (R467). -/
def StrikesStep (u : Nat) (s t : State) : Prop :=
  ∀ k st, s.stepOf u = some (k, st) → Tab.find t.steps k = some { st with struck := true } ∧
    ∀ v ∈ st.towers, (t.tw v).run ≠ .running

/-- The register field holds `v` after the command. -/
def Holds (t : State) (r : RegField) (v : Nat) : Prop := t.f r = v % 2 ^ (r.hi + 1 - r.lo)

/-- A counter that stops at its largest value counts `n` more. -/
def Counts (s t : State) (r : RegField) (n : Nat) : Prop := t.f r = min (s.f r + n) (2 ^ (r.hi + 1 - r.lo) - 1)

/-- A page-table entry as it stands in memory or in the window. -/
def entryAt (s : State) (a : Nat) : Dword := BitVec.ofNat 64 (leNat (s.peek a 8))

/-- From a table of a level the walk of a DVA meets readable, well-formed, present entries and ends at the leaf `pte` of
level `l`, which is not being migrated (R378–R380). -/
def WalksTo (s : State) (dva : Nat) : Nat → Nat → Nat → Nat → Dword → Prop
  | 0, _, _, _, _ => False
  | n + 1, level, table, l, pte =>
    let a := table + 8 * tableIdx level dva
    let p := entryAt s a
    (0x100000000000 ≤ a ∨ s.unreadable a 8 = false) ∧ bit p 0 = true ∧ s.badEntry level p = false ∧
    if bit p 1 then bit p 6 = false ∧ l = level ∧ pte = p else WalksTo s dva n (level + 1) (fld p 44 8 * 256) l pte

/-- The Tower's translation structures hold nothing for requester `r`. -/
def ColdFor (w : Tower) (r : Nat) : Prop := Tab.get [] w.tlbs r = [] ∧ w.l2 = [] ∧ w.l2keep = [] ∧ w.walkCache = []

/-- The requester numbered `who` waits on a translation fault, or not. -/
def waitsOnFault (w : Tower) (who : Nat) : Prop := match who with
  | 0 => w.core.wait = .translation
  | 1 => w.sVec = .xlat
  | 2 => w.sDom = .xlat
  | 3 => w.sTile = .xlat
  | k => (Tab.get {} w.slots (k - 4)).stopped = 2

/-- `n` bytes of device memory at `a`, every one of which answers. -/
def Answers (s : State) (a n : Nat) : Prop :=
  a + n ≤ s.f Reg.memSizeSize ∧ a + n ≤ 0x100000000000 ∧
  ∀ y < n, s.lost (a + y) = false ∧ s.silent (a + y) = false ∧ Tab.has s.bad ((a + y) / 64) = false

/-- No part of the module is judged or doubted, no self-test or retirement waits for the boundary, and no supply droops. -/
def Untroubled (s : State) : Prop :=
  s.rel.judged = [] ∧ s.rel.counts = [] ∧ s.rel.ueSeen = [] ∧ s.rel.tests = [] ∧ s.rel.retireLater = [] ∧ s.dev.silent = [] ∧
  s.pwr.droop = []

/-- The Keeps' decisions come in time, and the follower is sound. -/
def TimelyDecisions (env : Sample) : Prop :=
  env.late = false ∧ env.reported = true ∧ env.followerFault = false ∧ env.bridgeFault = false ∧
  env.temps.length = 32

/-- No Tower, step, channel or collective is in use, no part is judged or doubted, and no packet waits. -/
def QuietModule (s : State) : Prop :=
  s.towers = [] ∧ s.steps = [] ∧ s.chans = [] ∧ s.colls = [] ∧ s.roll.occ = [] ∧ Untroubled s ∧ s.smb.pending = none ∧
  s.adm.rows = [] ∧ s.adm.inputs = [] ∧ s.lateWrites = []

/-- What item 1 and the packets leave to a boundary of which the steps decide: the Keeps act in time and direct both dies, nothing is judged, no SMBus or
ring packet waits, no collective slot is in use, every Tower is free, out of service, or in a step, and none is to be sampled. -/
def StepBoundary (env : Sample) (s : State) : Prop :=
  s.keepsAct = true ∧ TimelyDecisions env ∧ env.directed = true ∧ Untroubled s ∧ s.colls = [] ∧ s.smb.pending = none ∧ s.adm.rows = [] ∧ s.adm.inputs = [] ∧
  s.lateWrites = [] ∧ s.roll.keepCfgDue = 0 ∧ s.roll.left = 0 ∧ Memory.wf s.mem = true ∧ Tab.sortedFrom 0 s.bad = true ∧
  Tab.sortedFrom 0 s.steps = true ∧
  ∀ u < 128, (s.tw u).armed = false ∧ s.fb (Reg.twrSmpCtrlEn u) = false ∧ s.fb (Reg.twrStatMchk u) = false ∧
    ((s.tw u).run = .free ∨ (s.tw u).run = .retired ∨ ((s.tw u).step ≠ none ∧ (s.tw u).run ∈ [.running, .done, .stopped]))

/-- The Towers of a step that a dispatch puts into their entry state: ranks in the order of the list, the arguments in g1 to g4, the
program counter and two segments from the descriptor, nothing else held over (R301, R465). -/
def Entered (t : State) (k : Nat) (st : StepSt) (ts : List Nat) : Prop :=
  ∀ j u, ts[j]? = some u →
    let w := t.tw u
    let seg := fun (o : Nat) => Seg.mk (BitVec.ofNat 64 (leAt ((st.desc.drop o).take 16) 0 8))
      (BitVec.ofNat 64 (leAt ((st.desc.drop o).take 16) 8 8))
    w.run = .running ∧ w.step = some k ∧ w.rank = j ∧ w.localBits = [] ∧ EnginesIdle w ∧
    w.core.pc = BitVec.ofNat 64 (leAt st.desc 0 4) ∧ w.core.estat = 0 ∧ w.core.flags = 0 ∧
    w.core.tower = BitVec.ofNat 64 (u + j * 2 ^ 16 + (leAt st.desc 4 1 + 1) * 2 ^ 32) ∧
    w.core.getS 0 = seg 0x30 ∧ w.core.getS 1 = seg 0x40 ∧ (∀ r : R3, 1 < r.toNat → w.core.getS r = {}) ∧
    ∀ r : GReg, w.core.getG r = if 1 ≤ r.toNat ∧ r.toNat ≤ 4 then BitVec.ofNat 64 (leAt st.desc (8 + 8 * r.toNat) 8) else 0

/-- The 32 bytes of a completion entry in a ring of `2 ^ log` entries in which `posted` have been posted (R460). -/
def entryBytes (st : StepSt) (k status posted log used energy now : Nat) : List Byte :=
  leBytes 2 status ++ leBytes 2 (k % 65536) ++ leBytes 1 (1 - posted / 2 ^ log % 2 + 2 * b2n st.exact) ++ leBytes 1 st.reexec
    ++ leBytes 1 used ++ [0] ++ leBytes 8 (leAt st.desc 8 8) ++ leBytes 8 now ++ leBytes 4 energy
    ++ leBytes 4 (if status = 0 then st.result else 0)

/-- The step `k`, alone on the module, ends at the boundary with a status: it is gone, its Towers are free, and its entry, with the
energy and the rolls that the roll just ended adds, stands in its channel's ring and is posted, with its signal where CQ_IRQ is set;
a ring in the window that the host die answers with an error makes the channel FAULTED, and the completion is held. -/
def EndsAtBoundary (env : Sample) (s t : State) (k : Nat) (st : StepSt) (status : Nat) : Prop :=
  let n := k / 65536
  let c := s.chan n
  let a := c.cqBase + 32 * (c.posted % 2 ^ c.cqLog)
  let used := if st.phase = .resident ∧ s.stepHeld st = false then min 255 (st.used + 1) else st.used
  let energy := if s.roll.occ = [] then st.energy else min (st.energy + env.energy.toNat) (2 ^ 32 - 1)
  let bytes := entryBytes st k status c.posted c.cqLog used energy t.now
  Tab.find t.steps k = none ∧ (∀ u ∈ st.towers, (t.tw u).run = .free ∧ (t.tw u).step = none) ∧
  (Answers s a 32 → Stored s t a bytes ∧ (t.chan n).posted = (c.posted + 1) % 65536 ∧ (t.chan n).state = c.state ∧
    (c.irq = true → bit (t.rd (Reg.keepCqPend (n / 64))) (n % 64) = true)) ∧
  (inWindow a 32 = true → CqAnswers.of env.cqAnswers n c.posted = .hostErr → t.mem = s.mem ∧ (t.chan n).state = 3 ∧
    (t.chan n).posted = c.posted ∧ ∃ x, (t.chan n).heldC = c.heldC ++ [x] ∧ x.status = status ∧ x.sqIndex = k % 65536)

/-- The step alone on the module takes free Towers at the boundary: as many as it needs, those it names where it does, each in its
entry state (R464, R465, R301). -/
def PlacedAtBoundary (t : State) (k : Nat) (st : StepSt) (reexec : Nat) : Prop :=
  ∃ st', Tab.find t.steps k = some st' ∧ st'.phase = .resident ∧ st'.desc = st.desc ∧ st'.reexec = reexec ∧ st'.towers.length = st.need ∧
    (∀ u ∈ st'.towers, u < 128) ∧ st'.towers.Pairwise (· < ·) ∧ (st.place = true → st'.towers = st.named) ∧
    Entered t k st st'.towers ∧ t.roll.placed = 1

/-- A packet joins the queue of the lowest usable port of a direction whose replay buffer is full, so that it waits there;
the port hands over no other's traffic. -/
def Queues (s t : State) (dir : Nat) (k : Packet) : Prop :=
  ∀ p, (s.usable dir).head? = some p → 1024 ≤ (s.port p).replay.length → (s.port p).hand = [] →
    (t.port p).txq = (s.port p).txq ++ [k]

/-- The Keep serves the admin ring, stands at a boundary that has changed no step yet, and has taken the packets before (R444, R445). -/
def RingServes (s : State) : Prop :=
  s.keepsAct = true ∧ s.ready = true ∧ s.fb Reg.keepAdmCtrlEn = true ∧ s.boot.responder = false ∧
  s.atBoundary = true ∧ s.adm.rows = []

/-- A packet's common fields keep the rules of R443. -/
def FinePacket (w : Wennum) : Prop :=
  w.length.toNat ≤ 48 ∧ w.flags.toNat < 2 ∧ w.zero = 0 ∧ w.handle.toNat / 16384 % 4 = 0

/-- The 32 bytes of a reply (R442). -/
def replyOf (op : Nat) (w : Wennum) (s : State) (status handle : Nat) (result : List Byte) : List Byte :=
  leBytes 2 status ++ leBytes 2 op ++ leBytes 4 w.seq.toNat ++ leBytes 4 handle ++ leBytes 4 s.now
    ++ (result ++ List.replicate 16 0).take 16

/-- The command of the ring is answered: its reply is the last in line, with its status, result and result data. -/
def Answered (i : Instr) (op : Nat) (w : Wennum) (s t : State) (status handle : Nat) (result data : List Byte) : Prop :=
  exec i s = .next t ∧ t.adm.taken = s.adm.taken + 1 ∧ ∃ r, t.adm.replies = s.adm.replies ++ [r] ∧
    r.bytes = replyOf op w s status handle result ∧ r.data = data ∧ r.irq = decide (w.flags.toNat % 2 = 1)

/-- It is answered with an error, and nothing else changes. -/
def Rejected (i : Instr) (op : Nat) (w : Wennum) (s : State) (status : Nat) : Prop :=
  ∃ t, Answered i op w s t status w.handle.toNat [] [] ∧ t = { s with adm := t.adm }

/-- The row of a Wennum opcode. -/
def WennumRow (p : Path) (w : Wennum) (op : Nat) (i : Instr) : Prop :=
  op = 0x01 ∧ i = .ident p w ∨ op = 0x02 ∧ i = .modStatus p w ∨ op = 0x03 ∧ i = .logRead p w ∨
  op = 0x10 ∧ i = .chanCreate p w ∨ op = 0x11 ∧ i = .chanDestroy p w ∨ op = 0x12 ∧ i = .chanSet p w ∨
  op = 0x13 ∧ i = .chanAbort p w ∨ op = 0x14 ∧ i = .chanRing p w ∨ op = 0x15 ∧ i = .chanQuery p w ∨
  op = 0x20 ∧ i = .capSet p w ∨ op = 0x21 ∧ i = .energyQuery p w ∨ op = 0x30 ∧ i = .rollReport p w ∨
  op = 0x40 ∧ i = .migrate p w ∨ op = 0x50 ∧ i = .collBind p w ∨ op = 0x51 ∧ i = .collUnbind p w ∨
  op = 0x60 ∧ i = .fwStage p w ∨ op = 0x61 ∧ i = .fwActivate p w ∨ op = 0x62 ∧ i = .attest p w ∨
  op = 0x63 ∧ i = .relayout p w ∨ op = 0x64 ∧ i = .unretire p w ∨ op = 0x65 ∧ i = .reset p w

/-- The module has stopped: nothing executes on it, its channels have gone and READY is low; memory and flash keep what they
hold (R28, R517). -/
def Halted (s t : State) : Prop :=
  t.alive = false ∧ t.chans = [] ∧ t.steps = [] ∧ Holds t Reg.keepStatReady 0 ∧ Holds t Reg.hstStatReady 0 ∧
  (∀ u < 128, (t.tw u).run ≠ .running) ∧ t.mem = s.mem ∧ t.flash = s.flash

/-- A reset has begun the power-up sequence anew: what is volatile is gone, host memory, the queue of commands and the version
floor stay (R525, R542, R543). -/
def Restarted (s t : State) : Prop :=
  t.mem = [] ∧ t.chans = [] ∧ t.steps = [] ∧ t.bad = [] ∧ t.inbox = [] ∧ t.outbox = [] ∧
  t.boot.power = true ∧ t.boot.running = true ∧ t.boot.trip = false ∧ Holds t Reg.keepStatReady 0 ∧ Holds t Reg.hstStatReady 0 ∧
  t.hostMem = s.hostMem ∧ t.pending = s.pending ∧ t.flash.svnMin = s.flash.svnMin

end Sys2Proof.Says

open Sys2Proof Sys2Proof.Machine Sys2Proof.Says

/-! The queue of commands. -/

/-- The command at the front of the queue runs on the state with the queue's rest (the model's convention, log entry 1). On
an empty queue one reference-clock cycle passes: ROLL_PHASE counts it, up to the last rc of the roll, and with no Tower
listed nothing else changes (the model's convention, log entry 1; R39, R67). -/
def Obligations.StepRunsFrontOrIdles : Prop :=
  (∀ (i : Instr) (rest : List Instr) (s : State),
     step { s with pending := i :: rest } = exec i { s with pending := rest }) ∧
  (∀ s : State, s.pending = [] → s.boot.power = true → s.towers = [] →
     step s = .next (s.setF Reg.rollPhasePhase (min (s.f Reg.rollPhasePhase + 1) (s.roll.len - 1))))

/-! The scalar core (R259–R285). -/

/-- Sums and differences, with and without carry in. -/
def Obligations.AluSumsAndFlags : Prop :=
  ∀ (c : CoreId) (d a b : GReg) (f : Bool) (s : State), s.issuing c = true →
    let x := (s.core c).getG a
    let y := (s.core c).getG b
    let ci := bit (s.core c).flags 2
    let sum := fun (z : Dword) (plus : Nat) => fun (r : Dword) =>
      (decide (2 ^ 64 ≤ x.toNat + z.toNat + plus), decide (x.msb = z.msb) && decide (r.msb ≠ x.msb))
    let dif := fun (z : Dword) (borrow : Nat) => fun (r : Dword) =>
      (decide (z.toNat + borrow ≤ x.toNat), decide (x.msb ≠ z.msb) && decide (r.msb ≠ x.msb))
    let im := fun (k : Half) => k.signExtend 64
    GivesAlu (.add c d a b f) c s d f (x + y) (sum y 0 (x + y)).1 (sum y 0 (x + y)).2 ∧
    GivesAlu (.sub c d a b f) c s d f (x - y) (dif y 0 (x - y)).1 (dif y 0 (x - y)).2 ∧
    (let r := x + y + if ci then 1 else 0
     GivesAlu (.adc c d a b f) c s d f r (sum y (if ci then 1 else 0) r).1 (sum y (if ci then 1 else 0) r).2) ∧
    (let r := x - y - if ci then 0 else 1
     GivesAlu (.sbc c d a b f) c s d f r (dif y (if ci then 0 else 1) r).1 (dif y (if ci then 0 else 1) r).2) ∧
    ∀ k : Half,
      GivesAlu (.addi c d a k) c s d false (x + im k) false false ∧
      GivesAlu (.addiF c d a k) c s d true (x + im k) (sum (im k) 0 (x + im k)).1 (sum (im k) 0 (x + im k)).2

/-- Products: the low half, with V where the signed product does not fit 64 bits, and the high halves. Divisions, and their
two corners (R267). -/
def Obligations.AluProductsAndDivisions : Prop :=
  (∀ (c : CoreId) (d a b : GReg) (f : Bool) (s : State), s.issuing c = true →
     let x := (s.core c).getG a
     let y := (s.core c).getG b
     GivesAlu (.mul c d a b f) c s d f (x * y) false (decide ((x * y).toInt ≠ x.toInt * y.toInt)) ∧
     GivesAlu (.mulh c d a b f) c s d f ((x.signExtend 128 * y.signExtend 128).extractLsb' 64 64) false false ∧
     GivesAlu (.mulhu c d a b f) c s d f ((x.setWidth 128 * y.setWidth 128).extractLsb' 64 64) false false) ∧
  (∀ (c : CoreId) (d a b : GReg) (f : Bool) (s : State), s.issuing c = true →
     let x := (s.core c).getG a
     let y := (s.core c).getG b
     let worst : Prop := x = BitVec.intMin 64 ∧ y = -1
     GivesAlu (.div c d a b f) c s d f (if y = 0 then 0 else x.sdiv y) false (decide (y = 0 ∨ worst)) ∧
     GivesAlu (.rem c d a b f) c s d f (if y = 0 then x else x.srem y) false (decide (y = 0 ∨ worst)) ∧
     GivesAlu (.divu c d a b f) c s d f (if y = 0 then 0 else x / y) false (decide (y = 0)) ∧
     GivesAlu (.remu c d a b f) c s d f (if y = 0 then x else x % y) false (decide (y = 0)))

/-- Bitwise functions, shifts, minima and maxima leave C and V 0 with F = 1; the immediates are zero-extended. Counts of
bits, said bit by bit: the zeros above the highest one, the zeros below the lowest one, and the ones. `kset` and `kins`,
said bit by bit (R268). -/
def Obligations.AluBitwiseCountsConstants : Prop :=
  (∀ (c : CoreId) (d a b : GReg) (f : Bool) (s : State), s.issuing c = true →
     let x := (s.core c).getG a
     let y := (s.core c).getG b
     let n := (y &&& 63).toNat
     GivesAlu (.and c d a b f) c s d f (x &&& y) false false ∧
     GivesAlu (.or c d a b f) c s d f (x ||| y) false false ∧
     GivesAlu (.xor c d a b f) c s d f (x ^^^ y) false false ∧
     GivesAlu (.sll c d a b f) c s d f (x <<< n) false false ∧
     GivesAlu (.srl c d a b f) c s d f (x >>> n) false false ∧
     GivesAlu (.sra c d a b f) c s d f (x.sshiftRight n) false false ∧
     GivesAlu (.min c d a b f) c s d f (if y.slt x then y else x) false false ∧
     GivesAlu (.max c d a b f) c s d f (if x.slt y then y else x) false false ∧
     GivesAlu (.minu c d a b f) c s d f (if y < x then y else x) false false ∧
     GivesAlu (.maxu c d a b f) c s d f (if x < y then y else x) false false ∧
     (∀ k : Half,
       GivesAlu (.andi c d a k) c s d false (x &&& k.setWidth 64) false false ∧
       GivesAlu (.ori c d a k) c s d false (x ||| k.setWidth 64) false false ∧
       GivesAlu (.xori c d a k) c s d false (x ^^^ k.setWidth 64) false false) ∧
     ∀ m : BitVec 6,
       GivesAlu (.slli c d a m) c s d false (x <<< m.toNat) false false ∧
       GivesAlu (.srli c d a m) c s d false (x >>> m.toNat) false false ∧
       GivesAlu (.srai c d a m) c s d false (x.sshiftRight m.toNat) false false) ∧
  (∀ (c : CoreId) (d a : GReg) (f : Bool) (s : State), s.issuing c = true →
     let x := (s.core c).getG a
     (∃ n ≤ 64, (∀ j < n, x.getMsbD j = false) ∧ (n < 64 → x.getMsbD n = true) ∧
       GivesAlu (.clz c d a f) c s d f (BitVec.ofNat 64 n) false false) ∧
     (∃ n ≤ 64, (∀ j < n, x.getLsbD j = false) ∧ (n < 64 → x.getLsbD n = true) ∧
       GivesAlu (.ctz c d a f) c s d f (BitVec.ofNat 64 n) false false) ∧
     GivesAlu (.popc c d a f) c s d f
       (BitVec.ofNat 64 (((List.range 64).filter (fun j => x.getLsbD j)).length)) false false) ∧
  (∀ (c : CoreId) (d : GReg) (imm : Half) (h : BitVec 2) (s : State), s.issuing c = true →
     let lo := 16 * h.toNat
     (∃ v : Dword, GivesAlu (.kset c d imm h) c s d false v false false ∧
       ∀ j < 64, v.getLsbD j =
         if j < lo then false else if j < lo + 16 then imm.getLsbD (j - lo) else imm.getLsbD 15) ∧
     ∃ v : Dword, GivesAlu (.kins c d imm h) c s d false v false false ∧
       ∀ j < 64, v.getLsbD j =
         if lo ≤ j ∧ j < lo + 16 then imm.getLsbD (j - lo) else ((s.core c).getG d).getLsbD j)

/-- Where control goes: `b.cond` by its condition, `j`, `jal` with g31 as its link, `jalr`, which reads gA before it writes
gD. Offsets count words from the instruction itself. An integer compare, which is `sub.f` to g0, and then a branch test what
R269's table says. -/
def Obligations.ControlTransfers : Prop :=
  (∀ (c : CoreId) (s : State), s.issuing c = true →
     let k := s.core c
     let goes := fun (i : Instr) (d : GReg) (link : Bool) (to' : Dword) =>
       ∃ t, exec i s = .next t ∧ Retired c s t ∧
         (∀ r, (t.core c).getG r = if link = true ∧ r = d ∧ r ≠ 0 then k.pc + 4 else k.getG r) ∧
         t.core c = { k with g := (t.core c).g, loop := (t.core c).loop, pc := to', wait := .none }
     (∀ (cond : BitVec 4) (off : BitVec 22),
       goes (.bCond c cond off) 0 false (if condHolds cond k.flags then k.pc + off.signExtend 64 * 4 else k.pc + 4)) ∧
     (∀ off : BitVec 26, goes (.j c off) 0 false (k.pc + off.signExtend 64 * 4)) ∧
     (∀ off : BitVec 26, goes (.jal c off) 31 true (k.pc + off.signExtend 64 * 4)) ∧
     ∀ d a : GReg, goes (.jalr c d a) d true (k.getG a &&& ~~~ 3)) ∧
  (∀ (c : CoreId) (a b : GReg) (s t : State), s.issuing c = true → exec (.sub c 0 a b true) s = .next t →
     let x := (s.core c).getG a
     let y := (s.core c).getG b
     let f := (t.core c).flags
     condHolds 0 f = decide (x = y) ∧ condHolds 1 f = decide (x ≠ y) ∧
     condHolds 2 f = x.slt y ∧ condHolds 3 f = !x.slt y ∧ condHolds 4 f = x.sle y ∧ condHolds 5 f = !x.sle y ∧
     condHolds 6 f = x.ult y ∧ condHolds 7 f = !x.ult y ∧ condHolds 8 f = x.ule y ∧ condHolds 9 f = !x.ule y)

/-- Moves between g and f registers, and reads of every core state register. Writes of core state: at Tower level the
writable registers take their fields, a reserved rounding mode leaves `fpcsr.RM` unchanged, and a write of a read-only register is a
privilege fault with no other effect; a Keep writes every register. Control registers: a Tower program reads `ROLL_COUNT` and
writes the interrupt enables of its own Tower (every register: the statement of the Tower's control registers). -/
def Obligations.MovesAndCoreState : Prop :=
  (∀ (c : CoreId) (d a : GReg) (s : State), s.issuing c = true →
     let k := s.core c
     GivesG (.mvGf c d a) c s d ((k.getQ a).extractLsb' 0 64) k.flags k.fpcsr ∧
     GivesF (.mvFg c d a) c s d (k.getG a) k.fpcsr ∧
     ∀ n v, (n, v) ∈ [((0 : BitVec 5), k.flags), (1, k.fpcsr), (2, k.epc), (3, k.ecause), (4, k.eaddr), (5, k.evec),
         (6, k.estat), (7, k.bwin), (8, k.tower)] →
       GivesG (.mfcs c d n) c s d v k.flags k.fpcsr) ∧
  (∀ (c : CoreId) (a : GReg) (s : State), s.issuing c = true →
     let k := s.core c
     let v := k.getG a
     let done := { k with pc := k.pc + 4, wait := .none }
     GivesCore (.mtcs c 0 a) c s { done with flags := v &&& 0x1F } ∧
     GivesCore (.mtcs c 2 a) c s { done with epc := v } ∧
     GivesCore (.mtcs c 5 a) c s { done with evec := v &&& 0xFFFFFFFFFFFFF001 } ∧
     GivesCore (.mtcs c 1 a) c s
       { done with fpcsr := if 5 ≤ fld v 7 5 then (k.fpcsr &&& 0xE0) ||| (v &&& 0x1F) else v &&& 0xFF } ∧
     (∀ d, c = .keep d →
       GivesCore (.mtcs c 3 a) c s { done with ecause := v &&& 0x7FFFF } ∧
       GivesCore (.mtcs c 4 a) c s { done with eaddr := v } ∧
       GivesCore (.mtcs c 6 a) c s { done with estat := (k.estat &&& 2) ||| (v &&& 1) } ∧
       GivesCore (.mtcs c 7 a) c s { done with bwin := v &&& 0x3FF07FF } ∧
       GivesCore (.mtcs c 8 a) c s { done with tower := v &&& 0xFF007F007F }) ∧
     ∀ t n, c = .tower t → n ∈ [(3 : BitVec 5), 4, 6, 7, 8] → CanTrap c s →
       ∃ s', exec (.mtcs c n a) s = .next s' ∧ Enters c s s' 0 0 3 (n.setWidth 64) k.pc) ∧
  ∀ (u : TId) (d a b : GReg) (off : BitVec 15) (s : State), s.issuing (.tower u) = true →
    let k := s.core (.tower u)
    let v := k.getG b
    let named := (k.getG a + off.signExtend 64 * 8).toNat
    (named = Reg.rollCount → GivesG (.crr (.tower u) d a off) (.tower u) s d (s.readReg Reg.rollCount) k.flags k.fpcsr) ∧
    (named = Reg.twrIen u.toNat → ∃ t, exec (.crw (.tower u) a b off) s = .next t ∧ t.core (.tower u) = passed k ∧
      Holds t (Reg.twrIenEnLevel u.toNat) (fld v 22 16) ∧ Holds t (Reg.twrIenEnLatch u.toNat) (fld v 3 0) ∧ t.mem = s.mem)

/-- A floating-point instruction rounds once the exact result that its name says, under its mode or `fpcsr.RM`, writes it to
fD and ORs its flags into `fpcsr`; sources are read in the order a, b, c. A NaN operand passes through: the result is the
first NaN operand with its quiet bit set, and NV is set only for a signalling operand. Comparisons set exactly one of the
four flags, and S takes V; `fcmp` sets NV for a signalling operand, `fcmpe` for any NaN. -/
def Obligations.FloatRoundedResults : Prop :=
  (∀ (c : CoreId) (d a b e : GReg) (rm : Rm) (dbl : Bool) (s : State), s.issuing c = true →
     let k := s.core c
     let F := if dbl then FFmt.b64 else FFmt.b32
     let v := fun r => F.dec ((k.getQ r).toNat % 2 ^ 64 % 2 ^ F.width)
     let mode := rmResolve rm (fld k.fpcsr 7 5)
     let done := fun (i : Instr) (r : Nat × Fl) =>
       GivesF i c s d (BitVec.ofNat 64 r.1) (k.fpcsr ||| BitVec.ofNat 64 r.2.bits)
     done (.fadd c d a b rm dbl) (F.addV mode false (v a) (v b)) ∧
     done (.fsub c d a b rm dbl) (F.addV mode false (v a) (v b).flip) ∧
     done (.fmul c d a b rm dbl) (F.mulV mode false (v a) (v b)) ∧
     done (.fdiv c d a b rm dbl) (F.divV mode false (v a) (v b)) ∧
     done (.fsqrt c d a rm dbl) (F.sqrtV mode false (v a)) ∧
     done (.fusedMulAdd c d a b e rm dbl) (F.fmaV mode false (v a) (v b) (v e)) ∧
     done (.fusedMulSub c d a b e rm dbl) (F.fmaV mode false (v a) (v b) (v e).flip) ∧
     done (.fusedNegMulAdd c d a b e rm dbl) (F.fmaV mode false (v a).flip (v b) (v e)) ∧
     done (.fusedNegMulSub c d a b e rm dbl) (F.fmaV mode false (v a).flip (v b) (v e).flip) ∧
     done (.frint c d a rm dbl) (F.rint mode false (v a)) ∧
     done (.frintx c d a rm dbl) (F.rint mode true (v a)) ∧
     done (.fscaleb c d a b rm dbl) (F.scaleb mode (v a) (k.getG b).toInt) ∧
     done (.fcvtFf c d a rm dbl) (toFloat F (if dbl then FFmt.b32 else FFmt.b64) mode false (v a)) ∧
     (∀ sgn w64, done (.fcvtFi c d a rm dbl sgn w64) (intToFloat F mode false
       (let n := (k.getG a).toNat % 2 ^ (if w64 then 64 else 32)
        if sgn then sext (if w64 then 64 else 32) n else (n : Int)))) ∧
     ∀ x sgn w64,
       let r := toInt (if w64 then 64 else 32) sgn mode (v a)
       GivesG (.fcvtIf c d a rm dbl x sgn w64) c s d (dw r.1) k.flags
         (k.fpcsr ||| BitVec.ofNat 64 ({ r.2 with nx := r.2.nx && x } : Fl).bits)) ∧
  (∀ (c : CoreId) (d a b : GReg) (rm : Rm) (dbl : Bool) (s : State), s.issuing c = true →
     let k := s.core c
     let eb := if dbl then 11 else 8
     let fb := if dbl then 52 else 23
     let bits := fun r => (k.getQ r).toNat % 2 ^ (1 + eb + fb)
     let nan := fun x : Nat => decide (x / 2 ^ fb % 2 ^ eb = 2 ^ eb - 1 ∧ x % 2 ^ fb ≠ 0)
     let sig := fun x : Nat => nan x && decide (x % 2 ^ fb < 2 ^ (fb - 1))
     let quiet := fun x : Nat => if sig x then x + 2 ^ (fb - 1) else x
     let nv := fun on : Bool => k.fpcsr ||| if on then 0x10 else 0
     let x := bits a
     let y := bits b
     (nan x = true ∨ nan y = true → ∀ i ∈ [Instr.fadd c d a b rm dbl, .fsub c d a b rm dbl, .fmul c d a b rm dbl,
         .fdiv c d a b rm dbl, .frem c d a b dbl, .fmin c d a b dbl, .fmax c d a b dbl],
       GivesF i c s d (BitVec.ofNat 64 (if nan x then quiet x else quiet y)) (nv (sig x || sig y))) ∧
     ∀ e : Bool, ∃ n z cy v : Bool,
       GivesCore (if e then .fcmpe c a b dbl else .fcmp c a b dbl) c s
         { k with flags := setFlags k.flags n z cy v, pc := k.pc + 4, wait := .none,
                  fpcsr := nv (if e then nan x || nan y else sig x || sig y) } ∧
       [n, z, cy, v].count true = 1 ∧ v = (nan x || nan y) ∧ (x = y → nan x = false → z = true))

/-- The floating-point instructions that do not round. `fneg`, `fabs` and `fsgnj` act on the sign bit alone and set no flag;
`fclass` sets exactly one bit of its mask. -/
def Obligations.FloatExactResults : Prop :=
  (∀ (c : CoreId) (d a b : GReg) (dbl : Bool) (s : State), s.issuing c = true →
     let k := s.core c
     let F := if dbl then FFmt.b64 else FFmt.b32
     let bits := fun r => (k.getQ r).toNat % 2 ^ 64 % 2 ^ F.width
     let v := fun r => F.dec (bits r)
     let done := fun (i : Instr) (r : Nat × Fl) =>
       GivesF i c s d (BitVec.ofNat 64 r.1) (k.fpcsr ||| BitVec.ofNat 64 r.2.bits)
     done (.frem c d a b dbl) (F.remV (v a) (v b)) ∧
     done (.fmin c d a b dbl) (F.minmax false (bits a) (bits b)) ∧
     done (.fmax c d a b dbl) (F.minmax true (bits a) (bits b)) ∧
     done (.fminnum c d a b dbl) (F.minmaxNum false (bits a) (bits b)) ∧
     done (.fmaxnum c d a b dbl) (F.minmaxNum true (bits a) (bits b)) ∧
     done (.fnextup c d a dbl) (F.nextUp (bits a)) ∧
     done (.fnextdn c d a dbl) (F.nextDown (bits a)) ∧
     GivesG (.ftot c d a b dbl) c s d (if F.totalKey (bits a) ≤ F.totalKey (bits b) then 1 else 0) k.flags k.fpcsr ∧
     GivesG (.ftotm c d a b dbl) c s d
       (if bits a % 2 ^ (F.width - 1) ≤ bits b % 2 ^ (F.width - 1) then 1 else 0) k.flags k.fpcsr ∧
     (∀ n, (v a).logb = some n → GivesG (.flogb c d a dbl) c s d (dw n) k.flags k.fpcsr) ∧
     ((v a).logb = none → ∃ t, exec (.flogb c d a dbl) s = .next t ∧ (t.core c).pc = k.pc + 4
       ∧ (t.core c).fpcsr = k.fpcsr ||| 0x10 ∧ (∀ r, r ≠ d → (t.core c).getG r = k.getG r) ∧ t.mem = s.mem)) ∧
  (∀ (c : CoreId) (d a b : GReg) (dbl : Bool) (s : State), s.issuing c = true →
     let k := s.core c
     let top := if dbl then 63 else 31
     let x := (k.getQ a).extractLsb' 0 64
     let y := (k.getQ b).extractLsb' 0 64
     let signed := fun (i : Instr) (sign : Bool) => ∃ v : Dword, GivesF i c s d v k.fpcsr ∧
       ∀ j < 64, v.getLsbD j = if j = top then sign else if j < top then x.getLsbD j else false
     signed (.fneg c d a dbl) (!x.getLsbD top) ∧
     signed (.fabs c d a dbl) false ∧
     signed (.fsgnj c d a b dbl) (y.getLsbD top) ∧
     ∃ n < 10, GivesG (.fclass c d a dbl) c s d (BitVec.ofNat 64 (2 ^ n)) k.flags k.fpcsr)

/-- Short-vector operations act lane by lane, on the low 64 bits of a register or on all 128, and OR their flags; compares
write one bit to a lane of gD; `qdup` and `qswap` move lanes. The bitwise short-vector operations and the exchange of
halves, and what is illegal: complex binary64 with W = 0 for any of them, and `qswap` with W = 0. An illegal instruction
takes its exception with the word in `eaddr`. -/
def Obligations.ShortVectors : Prop :=
  (∀ (c : CoreId) (d a b : GReg) (w : Bool) (lf : R3) (s : State), s.issuing c = true →
     let k := s.core c
     let f := qFmt lf
     let n := fmtBits f
     let lanes := (if w then 128 else 64) / n
     let at' := fun r j => (k.getQ r).toNat / 2 ^ (n * j) % 2 ^ n
     let cplx := decide (lf = 6) || decide (lf = 7)
     let arith := fun (i : Instr) (op : LOp) => ∃ (v : Qword) (fl : Fl),
       GivesQ i c s d v (k.fpcsr ||| BitVec.ofNat 64 { fl with sat := 0 }.bits) ∧
       (∀ j < lanes, v.toNat / 2 ^ (n * j) % 2 ^ n
         = (laneOp f op (rmResolve .dyn (fld k.fpcsr 7 5)) false (at' a j) (at' b j) (at' d j)).1 % 2 ^ n) ∧
       (w = false → v.extractLsb' 64 64 = (k.getQ d).extractLsb' 64 64)
     let compare := fun (i : Instr) (p : Pred) => ∃ (v : Dword) (fl : Fl),
       GivesG i c s d v k.flags (k.fpcsr ||| BitVec.ofNat 64 fl.bits) ∧
       ∀ j < 64, v.getLsbD j = (decide (j < lanes) && (lanePred f p (at' a j) (at' b j)).1)
     (w = false → lf ≠ 7) →
     arith (.qadd c d a b w lf) .add ∧ arith (.qsub c d a b w lf) .sub ∧
     compare (.qcmpeq c d a b w lf) .eq ∧ compare (.qcmpun c d a b w lf) .un ∧
     (cplx = false → arith (.qmul c d a b w lf) .mul ∧ arith (.qfma c d a b w lf) .fma ∧
       arith (.qmin c d a b w lf) .min ∧ arith (.qmax c d a b w lf) .max ∧
       compare (.qcmplt c d a b w lf) .lt ∧ compare (.qcmple c d a b w lf) .le) ∧
     (cplx = true → arith (.qcmul c d a b w lf) .cmul ∧ arith (.qcmac c d a b w lf) .cmac ∧
       ∃ v, GivesQ (.qconj c d a w lf) c s d v k.fpcsr ∧
         (∀ j < lanes, v.toNat / 2 ^ (n * j) % 2 ^ n = at' a j ^^^ 2 ^ (n - 1)) ∧
         (w = false → v.extractLsb' 64 64 = (k.getQ d).extractLsb' 64 64)) ∧
     ∃ v, GivesQ (.qdup c d a w lf) c s d v k.fpcsr ∧ (∀ j < lanes, v.toNat / 2 ^ (n * j) % 2 ^ n = at' a 0) ∧
       (w = false → v.extractLsb' 64 64 = (k.getQ d).extractLsb' 64 64)) ∧
  (∀ (c : CoreId) (d a b : GReg) (lf : R3) (s : State), s.issuing c = true →
     let k := s.core c
     let low := fun v : Qword => (k.getQ d).extractLsb' 64 64 ++ v.extractLsb' 0 64
     let x := k.getQ a
     let y := k.getQ b
     GivesQ (.qand c d a b true lf) c s d (x &&& y) k.fpcsr ∧
     GivesQ (.qor c d a b true lf) c s d (x ||| y) k.fpcsr ∧
     GivesQ (.qxor c d a b true lf) c s d (x ^^^ y) k.fpcsr ∧
     GivesQ (.qswap c d a true lf) c s d (x.extractLsb' 0 64 ++ x.extractLsb' 64 64) k.fpcsr ∧
     (lf ≠ 7 → GivesQ (.qand c d a b false lf) c s d (low (x &&& y)) k.fpcsr ∧
       GivesQ (.qor c d a b false lf) c s d (low (x ||| y)) k.fpcsr ∧
       GivesQ (.qxor c d a b false lf) c s d (low (x ^^^ y)) k.fpcsr) ∧
     (CanTrap c s → ∀ i ∈ [Instr.qand c d a b false 7, .qadd c d a b false 7, .qdup c d a false 7, .qswap c d a false lf],
       ∃ t, exec i s = .next t ∧ Enters c s t 0 0 1 ((encode i).setWidth 64) k.pc))

/-! Memory as the scalar core sees it (R271–R285, R309–R324). -/

/-- Loads read their bytes, little-endian, uncached from memory or from a line of the L1, and extend them as their size code
says; reserved size codes are illegal instructions. Lines that are not held: maintenance does nothing, and a line that a load
asked for comes. An error in a Tower core's registers is a machine check. -/
def Obligations.LoadsReadBytes : Prop :=
  ∀ (c : CoreId) (d : GReg) (sg : R3) (a : GReg) (size : R3) (off : BitVec 10) (bs : List Byte) (s : State),
    s.issuing c = true →
    let k := s.core c
    let n := sizeBytes size
    let o := (k.getG a + off.signExtend 64 * BitVec.ofNat 64 n).toNat
    (Quiet c s → (FindsUncached c s (k.getS sg) o n bs ∨ FindsCached c s (k.getS sg) o n bs) →
      (size ≠ 7 → ∃ t, exec (.ld c d sg a size off .none) s = .next t ∧ LoadKeeps c s t ∧
        (t.core c).q = k.q ∧ (t.core c).segs = k.segs ∧
        WritesG k (t.core c) d
          (if 4 ≤ size.toNat then (BitVec.ofNat (8 * n) (leNat bs)).signExtend 64 else BitVec.ofNat 64 (leNat bs))) ∧
      (size = 2 ∨ size = 3 ∨ size = 7 → ∃ t, exec (.fld c d sg a size off .none) s = .next t ∧ LoadKeeps c s t ∧
        (t.core c).g = k.g ∧ (t.core c).segs = k.segs ∧
        WritesQ k (t.core c) d (if size = 7 then BitVec.ofNat 128 (leNat bs)
          else (k.getQ d).extractLsb' 64 64 ++ BitVec.ofNat 64 (leNat bs)))) ∧
    (∀ fpa dva up, up ≠ .regs → OnePiece c s (k.getS sg) .read (k.getG a).toNat 1 fpa dva → Quiet c s →
      k.l1Line (fpa / 64) = none →
      GivesCore (.cwb c sg a up) c s (passed k) ∧ GivesCore (.cwbi ⟨c, up⟩ sg a) c s (passed k) ∧
      ∃ t, exec (.cpf c sg a) s = .next t ∧ t.mem = s.mem ∧ (t.core c).pc = k.pc + 4) ∧
    (∀ fpa dva up, up ≠ .regs → OnePiece c s (k.getS sg) .write (k.getG a).toNat 1 fpa dva → Quiet c s →
      k.l1Line (fpa / 64) = none →
      GivesCore (.cinv ⟨c, up⟩ sg a) c s (passed k)) ∧
    (∀ u, c = .tower u → ∀ i ∈ [Instr.ld c d sg a size off .regs, .fld c d sg a size off .regs, .sld ⟨c, .regs⟩ sg sg a (off.setWidth 8),
        .cwb c sg a .regs, .cinv ⟨c, .regs⟩ sg a, .cwbi ⟨c, .regs⟩ sg a, .fence ⟨c, .regs⟩, .done ⟨c, .regs⟩],
      ∃ t, exec i s = .next t ∧ MachineChecked u s t) ∧
    (∀ line dva up, up ≠ .regs → k.fill = some ⟨line, dva⟩ → NoRequests (s.tw (trackIdx c)) → Sound s (line * 64) 64 →
      Tab.find k.l1 (k.l1Take line) = none →
      ∃ t, exec (.l1FillComplete c up) s = .next t ∧ (t.core c).fill = none ∧ (t.core c).pc = k.pc) ∧
    (CanTrap c s →
      (size = 7 → ∃ t, exec (.ld c d sg a size off .none) s = .next t ∧
        Enters c s t 0 0 1 ((encode (.ld c d sg a size off .none)).setWidth 64) k.pc) ∧
      (size ≠ 2 ∧ size ≠ 3 ∧ size ≠ 7 → ∃ t, exec (.fld c d sg a size off .none) s = .next t ∧
        Enters c s t 0 0 1 ((encode (.fld c d sg a size off .none)).setWidth 64) k.pc))

/-- A store that passes its checks enters the store buffer with its low bytes, little-endian, and the instruction is
complete; with a full buffer of eight it waits where the oldest store cannot be performed, and takes its place where it can.
Memory is unchanged until the buffer drains. The store at the head of the buffer
is performed: an uncached or write-through store of at most 16 bytes goes to its bytes of memory and to no other, and leaves
the buffer; a write-back store goes to the line that the L1 holds, which becomes dirty. `sld` loads a descriptor into a
segment register, `sst` stores one, `srd` reads one; an invalid descriptor raises a segment fault of sub-cause BADDESC, and
s0 is not loadable at Tower level. -/
def Obligations.StoresBufferedAndSegments : Prop :=
  (∀ (c : CoreId) (d : GReg) (sg : R3) (a : GReg) (size : R3) (off : BitVec 10) (ps : List Piece) (s : State),
     s.issuing c = true →
     let k := s.core c
     let n := sizeBytes size
     let g := k.getS sg
     let o := (k.getG a + off.signExtend 64 * BitVec.ofNat 64 n).toNat
     s.coreResolve c g .write o n = (.ok ps, s) →
     let enters := fun (k : Core) bs => { k with sbuf := k.sbuf ++ [⟨ps, g.policy, bs, false⟩], pc := k.pc + 4, wait := .none }
     let stores := fun (i : Instr) (bs : List Byte) =>
       (k.sbuf.length < 8 → GivesCore i c s (enters k bs)) ∧
       (8 ≤ k.sbuf.length → s.drainOne c .none = (false, s) → exec i s = .next (s.setCore c (waitsAt k .storeBuffer i))) ∧
       ∀ s', 8 ≤ k.sbuf.length → s.drainOne c .none = (true, s') → (s'.core c).sbuf.length < 8 →
         ∃ t, exec i s = .next t ∧ Retired c s' t ∧ t.core c = enters (s'.core c) bs
     (size.toNat < 4 → stores (.st c d sg a size off) (leBytes n (k.getG d).toNat)) ∧
     (size = 2 ∨ size = 3 ∨ size = 7 → stores (.fst c d sg a size off) (leBytes n (k.getQ d).toNat))) ∧
  (∀ (c : CoreId) (fpa dva : Nat) (policy : Nat) (bs : List Byte) (aw : Bool) (rest : List SbEntry) (s : State),
     s.executes c = true → (s.core c).sbuf = ⟨[⟨fpa, bs.length, dva⟩], policy, bs, aw⟩ :: rest → 0 < bs.length →
     bs.length ≤ 16 → Memory.wf s.mem = true → (s.core c).fill = none → (s.core c).victim = none →
     NoRequests (s.tw (trackIdx c)) →
     (policy = 1 ∨ policy = 3 → Sound s fpa bs.length →
       ∃ t, exec (.storeBufferDrain c .none) s = .next t ∧ Stored s t (fpa % 2 ^ 45) bs ∧ CountsOnly c s t ∧
         t.hostMem = s.hostMem ∧ (t.core c).sbuf = rest ∧ (t.core c).g = (s.core c).g ∧ (t.core c).pc = (s.core c).pc) ∧
     ∀ i e, policy = 0 → fpa % 64 + bs.length ≤ 64 → (s.core c).l1Line (fpa / 64) = some (i, e) →
       ∃ t, exec (.storeBufferDrain c .none) s = .next t ∧ t.mem = s.mem ∧ t.regs = s.regs ∧ (t.core c).sbuf = rest ∧
         Tab.find (t.core c).l1 i = some ⟨e.line, true,
           e.data.take (fpa % 64) ++ bs ++ e.data.drop (fpa % 64 + bs.length), e.dva⟩) ∧
  (∀ (c : CoreId) (n m : R3) (d a : GReg) (off : Byte) (s : State), s.issuing c = true →
     let k := s.core c
     let o := (k.getG a + off.signExtend 64 * 16).toNat
     (∀ bs, Quiet c s → (n = 0 → isKeep c = true) →
       (FindsUncached c s (k.getS m) o 16 bs ∨ FindsCached c s (k.getS m) o 16 bs) →
       let g : Seg := ⟨BitVec.ofNat 64 (leAt bs 0 8), BitVec.ofNat 64 (leAt bs 8 8)⟩
       (s.segInvalid (isKeep c) g = false → ∃ t, exec (.sld ⟨c, .none⟩ n m a off) s = .next t ∧ LoadKeeps c s t ∧
         (t.core c).g = k.g ∧ (t.core c).q = k.q ∧ ∀ r, (t.core c).getS r = if r = n then g else k.getS r) ∧
       (s.segInvalid (isKeep c) g = true → CanTrap c s → ∃ t, exec (.sld ⟨c, .none⟩ n m a off) s = .next t ∧
         (t.core c).ecause = 0x502 ∧ (t.core c).eaddr = BitVec.ofNat 64 o ∧ (t.core c).epc = k.pc ∧
         (t.core c).segs = k.segs)) ∧
     (n = 0 → isKeep c = false → CanTrap c s → ∃ t, exec (.sld ⟨c, .none⟩ n m a off) s = .next t ∧
       Enters c s t 0 0 1 ((encode (.sld ⟨c, .none⟩ n m a off)).setWidth 64) k.pc) ∧
     (∀ ps, s.coreResolve c (k.getS m) .write o 16 = (.ok ps, s) → k.sbuf.length < 8 →
       GivesCore (.sst c m a off n) c s { k with
         sbuf := k.sbuf ++ [⟨ps, (k.getS m).policy, leBytes 8 (k.getS n).w0.toNat ++ leBytes 8 (k.getS n).w1.toNat, false⟩],
         pc := k.pc + 4, wait := .none }) ∧
     GivesG (.srd c d n 0) c s d ((k.getS n).w0 &&& 0x1FFFFFFFFFFFFFF) k.flags k.fpcsr ∧
     GivesG (.srd c d n 1) c s d (k.getS n).w1 k.flags k.fpcsr ∧
     (∃ v, GivesG (.srd c d n 2) c s d v k.flags k.fpcsr ∧ v.getLsbD 1 = s.segInvalid (isKeep c) (k.getS n) ∧
       v.getLsbD 0 = (k.getS n).null ∧ v.getLsbD 7 = (k.getS n).phys) ∧
     (CanTrap c s → ∃ t, exec (.srd c d n 3) s = .next t ∧ Enters c s t 0 0 1 ((encode (.srd c d n 3)).setWidth 64) k.pc))

/-- Cache maintenance on the line of one byte: of a line the L1 does not hold, nothing; `cinv` drops a line; `cwb` writes a
dirty line back and keeps it clean; `cwbi` writes it back and drops it. `cpf` starts a fill of an absent line, and completes
without effect on an access that would fault or on a line held; `fence` and `isync` complete once nothing is buffered, dirty
or awaited, and `isync` empties the loop buffer. With stores buffered and lines dirty, `fence`, `bset` and `bclr` of a
die-shared bit and `done` publish them all first; an evicted line is written back before the next store. A dirty line whose
parity fails is a machine check. A line that was being filled is allocated clean, with the bytes memory
holds, and a load that waited for it goes on; a write-back that meets an error response loses its bytes: its line leaves the L1, and the step is
struck, or ends as a program error for a host error completion. -/
def Obligations.CachesAndFences : Prop :=
  (∀ (c : CoreId) (m : R3) (a : GReg) (fpa dva : Nat) (s : State), s.issuing c = true → Quiet c s →
     let k := s.core c
     let on := fun (acc : Access) => OnePiece c s (k.getS m) acc (k.getG a).toNat 1 fpa dva
     (k.l1Line (fpa / 64) = none →
       (on .write → ∀ up, up ≠ .regs → GivesCore (.cinv ⟨c, up⟩ m a) c s (passed k)) ∧
       (on .read → ∀ up, up ≠ .regs → GivesCore (.cwb c m a up) c s (passed k) ∧ GivesCore (.cwbi ⟨c, up⟩ m a) c s (passed k))) ∧
     ∀ i e, k.l1Line (fpa / 64) = some (i, e) →
       (on .write → GivesCore (.cinv ⟨c, .none⟩ m a) c s { passed k with l1 := Tab.del k.l1 i }) ∧
       (on .read → e.dirty = false →
         GivesCore (.cwb c m a .none) c s (passed k) ∧
         GivesCore (.cwbi ⟨c, .none⟩ m a) c s { passed k with l1 := Tab.del k.l1 i }) ∧
       (on .read → e.dirty = true → e.data.length = 64 → Sound s (e.line * 64) 64 → Memory.wf s.mem = true →
         (∃ t, exec (.cwb c m a .none) s = .next t ∧ Stored s t (e.line * 64 % 2 ^ 45) e.data ∧ CountsOnly c s t ∧
           t.core c = { passed k with l1 := Tab.set k.l1 i { e with dirty := false } }) ∧
         ∃ t, exec (.cwbi ⟨c, .none⟩ m a) s = .next t ∧ Stored s t (e.line * 64 % 2 ^ 45) e.data ∧ CountsOnly c s t ∧
           t.core c = { passed k with l1 := Tab.del (Tab.set k.l1 i { e with dirty := false }) i })) ∧
  (∀ (c : CoreId) (m : R3) (a : GReg) (s : State), s.issuing c = true → Quiet c s →
     let k := s.core c
     (∀ e, s.coreResolve c (k.getS m) .read (k.getG a).toNat 1 = (.error e, s) → GivesCore (.cpf c m a) c s (passed k)) ∧
     (∀ fpa dva, OnePiece c s (k.getS m) .read (k.getG a).toNat 1 fpa dva →
       (k.l1Way (fpa / 64) ≠ none → GivesCore (.cpf c m a) c s (passed k)) ∧
       (k.l1Way (fpa / 64) = none → ∃ t, exec (.cpf c m a) s = .next t ∧
         t.core c = { passed k with fill := some ⟨fpa / 64, dva - fpa % 64⟩ } ∧ t.mem = s.mem)) ∧
     (AllClean k → ∀ up, up ≠ .regs → GivesCore (.fence ⟨c, up⟩) c s (passed k)) ∧
     (∀ u up, c = .tower u → up = .data ∨ up = .tag → (∃ x ∈ k.l1, x.2.dirty = true) →
       ∃ t, exec (.fence ⟨c, up⟩) s = .next t ∧ MachineChecked u s t) ∧
     GivesCore (.isync c) c s { passed k with loop := .idle }) ∧
  (∀ (c : CoreId) (s : State), Flushable c s → let k := s.core c
     (s.issuing c = true →
       (∃ t, exec (.fence ⟨c, .none⟩) s = .next t ∧ Flushed c s t ∧
         t.core c = { passed k with sbuf := [], l1 := (t.core c).l1, plru := (t.core c).plru }) ∧
       (∀ (v : Bool) (a : GReg) (off : BitVec 13),
         let adr := (k.getG a + off.setWidth 64).toNat
         let j := coreDie c * 65536 + fld k.bwin 25 16 * 64 + adr % 65536
         adr / 65536 = 1 → adr % 65536 < fld k.bwin 10 0 * 64 → fld k.bwin 25 16 * 64 + adr % 65536 < 65536 →
         ∃ t, exec (if v then .bset ⟨c, .none⟩ a off else .bclr ⟨c, .none⟩ a off) s = .next t ∧ Flushed c s t ∧
           (t.core c).pc = k.pc + 4 ∧ Tab.get false t.shared j = v) ∧
       ∀ u, c = .tower u → k.errSrc = none → EnginesIdle (s.tw u.toNat) →
         ∃ t, exec (.done ⟨c, .none⟩) s = .next t ∧ Flushed c s t ∧ (t.tw u.toNat).run = .done) ∧
     (∀ e, s.executes c = true → NoRequests (s.tw (trackIdx c)) → e.data.length = 64 → Sound s (e.line * 64) 64 → k.sbuf = [] →
       ∃ t, exec (.storeBufferDrain c .none) (s.setCore c { k with victim := some e }) = .next t ∧
         Stored s t (e.line * 64 % 2 ^ 45) e.data ∧ (t.core c).victim = none)) ∧
  ((∀ (c : CoreId) (up : Upset) (line dva : Nat) (s : State), up ≠ .regs → (s.core c).fill = some ⟨line, dva⟩ →
     NoRequests (s.tw (trackIdx c)) → Sound s (line * 64) 64 →
     let i := (s.core c).l1Take line
     Tab.find (s.core c).l1 i = none →
     ∃ t, exec (.l1FillComplete c up) s = .next t ∧ t.mem = s.mem ∧ CountsOnly c s t ∧
       Tab.find (t.core c).l1 i = some ⟨line, false, memAt s (line * 64) 64, dva⟩ ∧ (t.core c).fill = none ∧
       ((s.core c).wait = .l1Miss → (t.core c).wait = .none) ∧ (t.core c).pc = (s.core c).pc) ∧
   ∀ (u : TId) (lpa : BitVec 45) (hostErr : Bool) (k : Nat) (st : StepSt) (s : State),
     s.stepOf u.toNat = some (k, st) → u.toNat ∈ st.towers →
     let line := lpa.toNat / 64 + s.self * 2 ^ 39
     ∃ t st', exec (.writebackErrorResponse u lpa hostErr) s = .next t ∧ t.mem = s.mem ∧
       (∀ i e, (s.core (.tower u)).l1Line line = some (i, e) →
         (t.core (.tower u)).l1 = Tab.del (s.core (.tower u)).l1 i) ∧
       (∀ e, (t.core (.tower u)).victim = some e → e.line ≠ line) ∧
       (∀ e ∈ (t.tw u.toNat).track, e.posted = true → e.fpa / 64 ≠ line) ∧ (hostErr = true → Holds t Reg.hstStatHosterr 1) ∧
       Tab.find t.steps k = some st' ∧ st'.progErr = (st.progErr || hostErr) ∧ st'.struck = (st.struck || !hostErr) ∧
       (t.tw u.toNat).run ≠ .running)

/-! Bits, exceptions, interrupts, the interval timer, control registers (R286–R300, R325–R336). -/

/-- Bit instructions on a Tower's local bits, the first 65,536 addresses: the bit named takes its value or is read, no other
bit changes, and Z says that a bit read was 0. Die-shared bits: an address of the own die's or the peer die's space names a
bit within the core's window, offset by the window's base; an address outside, or at 2^18 and above, raises a bit fault with
the address in `eaddr`. -/
def Obligations.BitSpace : Prop :=
  (∀ (u : TId) (d a : GReg) (off : BitVec 13) (s : State),
     let c := CoreId.tower u
     s.issuing c = true →
     let k := s.core c
     let n := (k.getG a + off.setWidth 64).toNat
     n < 65536 →
     let old := Tab.get false (s.tw u.toNat).localBits n
     let sets := fun (i : Instr) (v : Bool) (k' : Core) => ∃ t, exec i s = .next t ∧ Retired c (s.modTw u.toNat
       (fun w => { w with localBits := (t.tw u.toNat).localBits })) t ∧ t.core c = k' ∧
       ∀ j, Tab.get false (t.tw u.toNat).localBits j = if j = n then v else Tab.get false (s.tw u.toNat).localBits j
     (∀ up, up ≠ .regs → sets (.bset ⟨c, up⟩ a off) true (passed k) ∧ sets (.bclr ⟨c, up⟩ a off) false (passed k)) ∧
     GivesG (.btst c d a off) c s d (if old then 1 else 0) (setBit k.flags 3 (!old)) k.fpcsr ∧
     sets (.btas c d a off) true (passed { k.setG d (if old then 1 else 0) with flags := setBit k.flags 3 (!old) })) ∧
  (∀ (c : CoreId) (d a : GReg) (off : BitVec 13) (s : State), s.issuing c = true →
     let k := s.core c
     let adr := (k.getG a + off.setWidth 64).toNat
     let i := adr % 65536
     let base := fld k.bwin 25 16 * 64
     let inside := i < fld k.bwin 10 0 * 64 ∧ base + i < 65536
     (∀ peer : Bool, adr / 65536 = (if peer then 2 else 1) → inside →
       let die := if peer then 1 - coreDie c else coreDie c
       let old := Tab.get false s.shared (die * 65536 + base + i)
       GivesG (.btst c d a off) c s d (if old then 1 else 0) (setBit k.flags 3 (!old)) k.fpcsr ∧
       (∃ t, exec (.btas c d a off) s = .next t ∧
         (∀ j, Tab.get false t.shared j = if j = die * 65536 + base + i then true else Tab.get false s.shared j) ∧
         t.core c = passed { k.setG d (if old then 1 else 0) with flags := setBit k.flags 3 (!old) }) ∧
       (Quiet c s → AllClean k → ∀ (v : Bool) (up : Upset), up ≠ .regs →
         ∃ t, exec (if v then .bset ⟨c, up⟩ a off else .bclr ⟨c, up⟩ a off) s = .next t ∧ t.core c = passed k ∧ t.mem = s.mem ∧
           ∀ j, Tab.get false t.shared j = if j = die * 65536 + base + i then v else Tab.get false s.shared j)) ∧
     (CanTrap c s → (adr / 65536 = 1 ∨ adr / 65536 = 2) ∧ ¬ inside ∨ 4 ≤ adr / 65536 ∨ (adr / 65536 = 3 ∧ 0x400 ≤ i) →
       ∀ up, up ≠ .regs → ∀ x ∈ [Instr.bset ⟨c, up⟩ a off, .bclr ⟨c, up⟩ a off, .btst c d a off, .btas c d a off, .bwait0 c a off d,
           .bwait1 c a off d],
         ∃ t, exec x s = .next t ∧ Enters c s t 0 0 4 (BitVec.ofNat 64 adr) k.pc))

/-- `bwait` goes on with Z = 1 once the bit holds the awaited value, and waits until then; a timeout ends it, with Z = 1 only
where the bit holds the awaited value by then, and the filler ramp of a waiting Tower falls one at a time to 0. -/
def Obligations.BitWaits : Prop :=
  (∀ (u : TId) (a tm : GReg) (off : BitVec 13) (want : Bool) (s : State),
    let c := CoreId.tower u
    s.issuing c = true → s.f (Reg.sprFillDuty u.toNat) = 0 →
    let k := s.core c
    let n := (k.getG a + off.setWidth 64).toNat
    n < 65536 →
    let i := if want then Instr.bwait1 c a off tm else .bwait0 c a off tm
    (Tab.get false (s.tw u.toNat).localBits n = want →
      GivesCore i c s { passed k with flags := setBit k.flags 3 true }) ∧
    (Tab.get false (s.tw u.toNat).localBits n ≠ want →
      exec i s = .next (s.setCore c (waitsAt k (.bwait (decide (k.getG tm ≠ 0)) n want) i)))) ∧
  (∀ (u : TId) (n : Nat) (want : Bool) (s : State), let c := CoreId.tower u
    s.executes c = true → s.f (Reg.sprFillDuty u.toNat) = 0 → (s.core c).wait = .bwait true n want → n < 65536 →
    ((s.core c).engPend ≠ [] → bit (s.core c).estat 0 = false → exec (.bwaitTimeout c) s = .next s) ∧
    ((s.core c).engPend = [] ∨ bit (s.core c).estat 0 = true →
    let z := decide (Tab.get false (s.tw u.toNat).localBits n = want)
    GivesCore (.bwaitTimeout c) c s { passed (s.core c) with flags := setBit (s.core c).flags 3 z })) ∧
  ∀ (u : TId) (s : State), ∃ t, exec (.fillRampStep u) s = .next t ∧
    t.f (Reg.sprFillDuty u.toNat) = s.f (Reg.sprFillDuty u.toNat) - 1 ∧ t.towers = s.towers ∧ t.mem = s.mem

/-- Exceptions of a core's own: `trap` gives its immediate in `eaddr` and resumes after itself, a word that is no instruction
of the core is illegal, gives itself in `eaddr` and resumes at itself; where the core can take none, a Tower's step ends as a
program error and a Keep stops, which the spec gives no effect. `eret` returns to `epc`, clears H and empties the loop
buffer. -/
def Obligations.ExceptionsAndReturn : Prop :=
  ∀ (c : CoreId) (imm : Half) (w : Word) (s : State), s.issuing c = true → decodeWord c w = none →
    let k := s.core c
    (CanTrap c s →
      (∃ t, exec (.trap c imm) s = .next t ∧ Enters c s t 0 0 5 (imm.setWidth 64) (k.pc + 4)) ∧
      ∃ t, exec (.illegalInstruction c w) s = .next t ∧ Enters c s t 0 0 1 (w.setWidth 64) k.pc) ∧
    (¬ CanTrap c s →
      (∀ u, c = .tower u → ∀ i ∈ [Instr.trap c imm, .illegalInstruction c w],
        ∃ t, exec i s = .next t ∧ t.core c = k ∧ t.mem = s.mem ∧ EndsStep u.toNat s t) ∧
      ∀ d, c = .keep d → exec (.trap c imm) s = .fault .keepException) ∧
    (bit k.estat 0 = true → k.errSrc = none → ∃ t, exec (.eret c) s = .next t ∧ t.mem = s.mem ∧
      let k' := t.core c
      k' = { k with estat := setBit k.estat 0 false, loop := .idle, pc := k.epc, wait := .none }) ∧
    (bit k.estat 0 = false → CanTrap c s → ∃ t, exec (.eret c) s = .next t ∧
      Enters c s t 0 0 1 ((encode (.eret c)).setWidth 64) k.pc) ∧
    ∀ u, c = .tower u → bit k.estat 0 = true → k.errSrc ≠ none → ∃ t, exec (.eret c) s = .next t ∧ EndsStep u.toNat s t

/-- An engine's segment fault is taken as an exception of its engine at the core's pc; an interrupt is taken from the only
source that is pending and eligible, with cause 0x20 + its number and 0 in `eaddr`. While a handler runs neither is. What
raises interrupts of a Tower: its timer, whose end is recorded, and which a write starts or the sampler's next interval
follows; and its doorbell. -/
def Obligations.AsynchronousEntries : Prop :=
  (∀ (u : TId) (v : Dword) (resp : Resp) (s : State), let n := u.toNat
     (∃ t, exec (.twrDoorbell u v) s = .next t ∧ bit (t.rd (Reg.twrIpend n)) 1 = true ∧ t.mem = s.mem) ∧
     (∃ t, exec (.twrWdog u v) s = .next t ∧ t.f (Reg.twrWdogInterval n) = fld v 31 0 ∧ t.mem = s.mem ∧
       t.core (.tower u) = s.core (.tower u)) ∧
     (bit v 0 = false → ∃ t, exec (.twrSmpCtrl u v) s = .next t ∧ t.f (Reg.twrSmpCtrlEn n) = 0 ∧ t.mem = s.mem) ∧
     ((s.tw n).run = .running → (s.tw n).held = false →
       ((s.tw n).armed = true → ∃ t, exec (.watchdogExpiry u) s = .next t ∧ t.f (Reg.twrStatWdogExp n) = 1 ∧
         bit (t.rd (Reg.twrIpend n)) 0 = true ∧ t.mem = s.mem) ∧
       (s.timerOwner n = 2 → ∃ t, exec (.sampleRecord u resp) s = .next t ∧
         (t.tw n).timer = s.f (Reg.twrSmpCtrlInterval n) ∧ t.core (.tower u) = s.core (.tower u)))) ∧
  ∀ (u : TId) (s : State), let c := CoreId.tower u
    s.executes c = true → s.f (Reg.sprFillDuty u.toNat) = 0 → (s.core c).wait = .none →
    let k := s.core c
    (∀ f, k.engPend = [f] → CanTrap c s →
      ∃ t, exec (.exceptionEntry u) s = .next t ∧
        EntersFrom { k with engPend := [] } c s t f.engine f.sub 2 (BitVec.ofNat 64 f.off) k.pc) ∧
    (∀ n < 23, k.engPend = [] → bit k.estat 0 = false →
      (∀ m < 23, ((s.pendingSrc u.toNat).testBit m && s.srcEligible u.toNat m) = decide (m = n)) →
      ∃ t, exec (.interruptEntry u) s = .next t ∧
        EntersFrom { k with errSrc := if n ∈ [16, 17, 18, 20, 21, 22] then some n else none } c s t 0 0 (0x20 + n) 0 k.pc) ∧
    (bit k.estat 0 = true → exec (.interruptEntry u) s = .next s ∧
      (k.engPend ≠ [] → exec (.exceptionEntry u) s = .next s))

/-- `nop` passes, and so do `fence` and `isync` where no store waits and no line is dirty; `halt` stops a Keep core after
itself and is illegal on a Tower; `done` ends a Tower's program once its
engines are idle and its stores visible, and rank 0 leaves g1[31:0] as the step's result; it is illegal on a Keep. `wait.q`
passes when the engines hold nothing; `qsync` puts its marker at the end of the queue it names, whose captured operands are
none, and a full queue stalls it. -/
def Obligations.ProgramEndAndQueueSync : Prop :=
  (∀ (c : CoreId) (s : State), s.issuing c = true →
     let k := s.core c
     GivesCore (.nop c) c s (passed k) ∧
     (Quiet c s → AllClean k → (∀ up, up ≠ .regs → GivesCore (.fence ⟨c, up⟩) c s (passed k)) ∧
       GivesCore (.isync c) c s { passed k with loop := .idle }) ∧
     (∀ d, c = .keep d → GivesCore (.halt c) c s { passed k with wait := .halted, waitAt := 0 }) ∧
     (CanTrap c s → (∀ u, c = .tower u → ∃ t, exec (.halt c) s = .next t ∧
         Enters c s t 0 0 1 ((encode (.halt c)).setWidth 64) k.pc) ∧
       ∀ d up, up ≠ .regs → c = .keep d → ∃ t, exec (.done ⟨c, up⟩) s = .next t ∧
         Enters c s t 0 0 1 ((encode (.done ⟨c, up⟩)).setWidth 64) k.pc) ∧
     ∀ u up, up ≠ .regs → c = .tower u → k.errSrc = none → Quiet c s → EnginesIdle (s.tw u.toNat) → AllClean k →
       ∃ t, exec (.done ⟨c, up⟩) s = .next t ∧ (t.tw u.toNat).run = .done ∧ t.core c = { k with wait := .none } ∧ t.mem = s.mem ∧
         ∀ n st, s.stepOf u.toNat = some (n, st) → (s.tw u.toNat).rank = 0 →
           Tab.find t.steps n = some { st with result := (k.getG 1).toNat % 2 ^ 32 }) ∧
  (∀ (u : TId) (dst : R3) (mask : BitVec 6) (s : State), let c := CoreId.tower u
     s.issuing c = true →
     let w := s.tw u.toNat
     let k := s.core c
     (EnginesIdle w → GivesCore (.waitQ u mask) c s (passed k)) ∧
     (dst.toNat < 6 →
       let e := engOf dst.toNat
       ((w.queue e).length < 32 → ∃ t, exec (.qsync u dst mask) s = .next t ∧ t.core c = passed k ∧ t.mem = s.mem ∧
         (t.tw u.toNat).queue e = w.queue e ++ [⟨w.serial, .marker mask.toNat, [], [], 0, 0, 0, false, .due⟩] ∧
         ∀ e', e' ≠ e → (t.tw u.toNat).queue e' = w.queue e') ∧
       (32 ≤ (w.queue e).length →
         exec (.qsync u dst mask) s = .next (s.setCore c (waitsAt k .queueFull (.qsync u dst mask))))) ∧
     (6 ≤ dst.toNat → CanTrap c s → ∃ t, exec (.qsync u dst mask) s = .next t ∧
       Enters c s t 0 0 1 ((encode (.qsync u dst mask)).setWidth 64) k.pc))

/-- The interval timer: a write of `TWR_WDOG` arms or disarms the watchdog; its expiry is recorded and, with source 0 not
eligible, ends the step; `TWR_SMP_CTRL` starts the sampler with an empty ring; a sample record is written and counted, or
dropped and counted while the ring is full; a doorbell latches source 1. A Tower program reads and writes the control
registers of its own blocks, by their addresses or by the alias that names its own Tower, and reads the roll registers; any
other register is a privilege fault, at which nothing is written. -/
def Obligations.TimerAndTowerRegisters : Prop :=
  (∀ (u : TId) (v : Dword) (s : State), let n := u.toNat
     (∃ t, exec (.twrWdog u v) s = .next t ∧ (t.tw n).armed = decide (fld v 31 0 ≠ 0) ∧
       t.f (Reg.twrWdogInterval n) = fld v 31 0 ∧ (fld v 31 0 ≠ 0 → (t.tw n).timer = fld v 31 0) ∧
       (t.tw n).core = (s.tw n).core ∧ t.mem = s.mem) ∧
     ((s.tw n).armed = true → (s.tw n).run = .running → (s.tw n).held = false → ∃ t, exec (.watchdogExpiry u) s = .next t ∧
       t.f (Reg.twrStatWdogExp n) = 1 ∧ (t.tw n).armed = false ∧ bit (t.rd (Reg.twrIpend n)) 0 = true ∧ t.mem = s.mem ∧
       (s.srcEligible n 0 = false → EndsStep n s t)) ∧
     (bit v 0 = false → ∃ t, exec (.twrSmpCtrl u v) s = .next t ∧ t.f (Reg.twrSmpCtrlEn n) = 0 ∧ t.towers = s.towers) ∧
     (bit v 0 = true → s.fb (Reg.twrSmpCtrlEn n) = false → 64 ≤ fld v 63 32 → 6 ≤ fld v 5 1 → fld v 5 1 ≤ 16 →
       s.inDevOrWin (fld (s.rd (Reg.twrSmpBase n)) 44 4 * 16) (16 * 2 ^ fld v 5 1) = true →
       ∃ t, exec (.twrSmpCtrl u v) s = .next t ∧ t.f (Reg.twrSmpCtrlEn n) = 1 ∧
         t.f (Reg.twrSmpCtrlInterval n) = fld v 63 32 ∧ t.f (Reg.twrSmpProdProd n) = 0 ∧
         t.f (Reg.twrSmpConsCons n) = 0) ∧
     (∀ resp, s.timerOwner n = 2 → (s.tw n).run = .running → (s.tw n).held = false →
       (s.f (Reg.twrSmpProdProd n) + 2 ^ 32 - s.f (Reg.twrSmpConsCons n)) % 2 ^ 32 = 2 ^ s.f (Reg.twrSmpCtrlLog2n n) →
       ∃ t, exec (.sampleRecord u resp) s = .next t ∧ t.mem = s.mem ∧ t.hostMem = s.hostMem ∧
         t.f (Reg.twrSmpProdProd n) = s.f (Reg.twrSmpProdProd n) ∧ Counts s t (Reg.twrSmpProdDrop n) 1 ∧
         (t.tw n).timer = s.f (Reg.twrSmpCtrlInterval n)) ∧
     (∀ resp, s.timerOwner n = 2 → (s.tw n).run = .running → (s.tw n).held = false →
       let prod := s.f (Reg.twrSmpProdProd n)
       let size := 2 ^ s.f (Reg.twrSmpCtrlLog2n n)
       let adr := fld (s.rd (Reg.twrSmpBase n)) 44 4 * 16 + prod % size * 16
       (prod + 2 ^ 32 - s.f (Reg.twrSmpConsCons n)) % 2 ^ 32 ≠ size → Memory.wf s.mem = true →
       adr + 16 ≤ s.f Reg.memSizeSize → adr + 16 ≤ 0x100000000000 → s.unreadable adr 16 = false →
       ∃ t, exec (.sampleRecord u resp) s = .next t ∧ Stored s t adr (s.sampleBytes n false) ∧
         t.f (Reg.twrSmpProdProd n) = (prod + 1) % 2 ^ 32) ∧
     ∃ t, exec (.twrDoorbell u v) s = .next t ∧ bit (t.rd (Reg.twrIpend n)) 1 = true ∧ t.towers = s.towers ∧ t.mem = s.mem) ∧
  (∀ (u : TId) (d a b : GReg) (off : BitVec 15) (s : State), let c := CoreId.tower u
     s.issuing c = true →
     let k := s.core c
     let named := (k.getG a + off.signExtend 64 * 8).toNat
     let real := if 0x1F010FF00000 ≤ named ∧ named < 0x1F0110000000 then towerBase u.toNat + named % 0x100000 else named
     named % 8 = 0 →
     (real = Reg.rollCount ∨ real = Reg.rollPhase ∨ (ownBlock u.toNat real = true ∧ blockEngine (real % 0x100000) = none) →
       GivesG (.crr c d a off) c s d (s.readReg real) k.flags k.fpcsr) ∧
     (real ≠ Reg.rollCount → real ≠ Reg.rollPhase → ownBlock u.toNat real = false → CanTrap c s →
       ∃ t, exec (.crr c d a off) s = .next t ∧ Enters c s t 0 0 3 (BitVec.ofNat 64 named) k.pc) ∧
     (ownBlock u.toNat real = false → CanTrap c s →
       ∃ t, exec (.crw c a b off) s = .next t ∧ Enters c s t 0 0 3 (BitVec.ofNat 64 named) k.pc) ∧
     (real = Reg.accSlot u.toNat 0 → CanTrap c s →
       ∃ t, exec (.crw c a b off) s = .next t ∧ Enters c s t 0 0 3 (BitVec.ofNat 64 named) k.pc) ∧
     (real = Reg.twrWdog u.toNat → ∃ t, exec (.crw c a b off) s = .next t ∧ t.core c = passed k ∧
       (t.tw u.toNat).armed = decide (fld (k.getG b) 31 0 ≠ 0) ∧ t.f (Reg.twrWdogInterval u.toNat) = fld (k.getG b) 31 0))

/-! The engines (R24, R25, R71–R258). -/

/-- Dome, Spire, Turret, tile and stream instructions issue in order into their engine's queue with their operands captured.
Vector instructions issue in order with the vector length and format of the moment and, for a scalar operand, g and q
captured. Encodings that R265 calls illegal are not pushed: the core takes the illegal-instruction exception with the word.
An engine that meets an uncorrectable error is a machine check.
-/
def Obligations.EngineIssue : Prop :=
  (∀ (u : TId) (d e2 sg sg2 : R3) (a b : GReg) (s : State), s.issuing (.tower u) = true →
     (∀ cls m n, IssuesAs (fun is => .dmCfg u is d cls m n) u .dom [] [] 0 s) ∧
     IssuesAs (fun is => .dmFree u is d) u .dom [] [] 0 s ∧ IssuesAs (fun is => .dmClr u is d) u .dom [] [] 0 s ∧
     (∀ fmt rm src, fmtCode fmt < 6 → IssuesAs (fun is => .dmLd u is d sg a fmt rm src e2) u .dom [sg] [a] 0 s ∧
       IssuesAs (fun is => .dmLdadd u is d sg a fmt rm src e2) u .dom [sg] [a] 0 s) ∧
     IssuesAs (fun is => .dmDrain u is d sg a b) u .dom [sg] [a, b] 0 s ∧
     IssuesAs (fun is => .dmXout u is d sg a) u .dom [sg] [a] 0 s ∧
     IssuesAs (fun is => .dmXadd u is d sg a) u .dom [sg] [a] 0 s ∧
     IssuesAs (fun is => .spCfg u is a) u .spr [] [a] 0 s ∧
     (∀ k n, IssuesAs (fun is => .spLds u is e2 k n) u .spr [] [] 0 s) ∧
     IssuesAs (fun is => .spLdsm u is sg a b) u .spr [sg] [a, b] 0 s ∧
     (∀ swap, IssuesAs (fun is => .spMm u is d e2 a swap) u .spr [] [a] 0 s) ∧
     IssuesAs (fun is => .spDrop u is) u .spr [] [] 0 s ∧
     (∀ p fmt, fmtCode fmt < 10 → p ≠ 3 → IssuesAs (fun is => .tuPtr u is p false sg a fmt) u .tur [sg] [a] 0 s) ∧
     (a ≠ 0 → IssuesAs (fun is => .tuProg u is a sg b) u .tur [sg] [b] 0 s) ∧
     (∀ count hist, count ≠ 0 → IssuesAs (fun is => .tuRun u is a count hist) u .tur [] [] 0 s) ∧
     IssuesAs (fun is => .tld u is d sg a b) u .tile [sg] [a, b] 0 s ∧
     IssuesAs (fun is => .tst u is sg a e2 b) u .tile [sg] [a, b] 0 s ∧
     IssuesAs (fun is => .tmv u is d e2 a) u .tile [] [a] 0 s ∧
     (∀ h, IssuesAs (fun is => .tmvVt u is d a h) u .tile [] [] 0 s ∧
       IssuesAs (fun is => .tmvTv u is a e2 h) u .tile [] [] 0 s) ∧
     IssuesAs (fun is => .tclr u is d) u .tile [] [] 0 s ∧
     ∀ k, IssuesAs (fun is => .stCopy u is k sg a sg2 b) u .str [sg, sg2] [a, b] 0 s ∧
       IssuesAs (fun is => .stShp u is k a b) u .str [] [a, b] 0 s ∧
       IssuesAs (fun is => .stFill u is k sg a b) u .str [sg] [a, b] 0 s ∧
       ∀ off, IssuesAs (fun is => .stSig u is k a off) u .str [] [a] 0 s) ∧
  (∀ (u : TId) (o : VArith) (p : VMem) (s : State), s.issuing (.tower u) = true →
     (∀ i ∈ [Instr.vadd u, .vsub u, .vmul u, .vdiv u, .vmin u, .vmax u, .vfma u, .vfms u, .vabs u, .vneg u, .vand u, .vor u,
         .vxor u, .vsll u, .vsrl u, .vsra u, .vmv u, .vmerge u, .vcmul u, .vcmac u, .vconj u, .vredsum u, .vredmax u,
         .vredmin u, .vwmul u, .vwmacc u, .vwdot u],
       IssuesAs (fun is => i is o) u .vec [] [o.b] o.b s) ∧
     (o.b = 0 → IssuesAs (fun is => .vsqrt u is o) u .vec [] [o.b] o.b s) ∧
     (o.d.toNat < 8 → ∀ i ∈ [Instr.vcmpeq u, .vcmplt u, .vcmple u, .vcmpun u],
       IssuesAs (fun is => i is o) u .vec [] [o.b] o.b s) ∧
     (∀ d a fmt rm m k, IssuesAs (fun is => .vcvt u is d a fmt rm m k) u .vec [] [] 0 s) ∧
     (∀ i ∈ [Instr.vld u, .vlds u, .vldx u, .vst u, .vsts u, .vstx u],
       IssuesAs (fun is => i is p) u .vec [p.s] [p.a, p.b] 0 s) ∧
     (p.v.toNat < 8 → ∀ form, IssuesAs (fun is => .vprobe u is form p) u .vec [p.s] [p.a, p.b] 0 s) ∧
     (∀ d a b, IssuesAs (fun is => .vmand u is d a b) u .vec [] [] 0 s ∧ IssuesAs (fun is => .vmor u is d a b) u .vec [] [] 0 s ∧
       IssuesAs (fun is => .vmxor u is d a b) u .vec [] [] 0 s ∧ IssuesAs (fun is => .vmnot u is d a) u .vec [] [] 0 s) ∧
     ∀ a, IssuesAs (fun is => .vrel u is a) u .vec [] [] 0 s) ∧
  (∀ (u : TId) (is : Issue) (d sg e2 : R3) (a b : GReg) (o : VArith) (p : VMem) (s : State),
     let c := CoreId.tower u
     s.issuing c = true → CanTrap c s →
     let ill := fun i : Instr => ∃ t, exec i s = .next t ∧ Enters c s t 0 0 1 ((encode i).setWidth 64) (s.core c).pc
     (∀ fmt rm src, 6 ≤ fmtCode fmt → ill (.dmLd u is d sg a fmt rm src e2) ∧ ill (.dmLdadd u is d sg a fmt rm src e2)) ∧
     (∀ q tile fmt, 10 ≤ fmtCode fmt → ill (.tuPtr u is q tile sg a fmt)) ∧
     (∀ q fmt, a ≠ 0 → ill (.tuPtr u is q true sg a fmt)) ∧
     (∀ fmt, 0 < fmtCode fmt → ill (.tuPtr u is 3 false sg a fmt)) ∧
     ill (.tuProg u is 0 sg b) ∧ (∀ hist, ill (.tuRun u is a 0 hist)) ∧ (o.b ≠ 0 → ill (.vsqrt u is o)) ∧
     (8 ≤ o.d.toNat → ill (.vcmpeq u is o) ∧ ill (.vcmplt u is o) ∧ ill (.vcmple u is o) ∧ ill (.vcmpun u is o)) ∧
     (8 ≤ p.v.toNat → ∀ form, ill (.vprobe u is form p))) ∧
  ∀ (u : TId) (d : R3) (s : State), FreeEngine u .dom s →
    ∃ t, exec (.dmFree u (.upset .dome) d) s = .next t ∧ MachineChecked u s t

/-- `dm.cfg` gives a tile its class, rows and columns with every lane cleared, if the class's side and the free granules
allow it, and otherwise sets CFG_ERR and ERR_TILE and leaves the tile; `dm.free` gives its granules back; `dm.clr` clears
its lanes and keeps its shape. A preload from a tile register turns each element into one exact lane term: `dm.ld` puts it
into the lane and `dm.ldadd` adds it to what the lane holds; an unconfigured tile is a configuration error. -/
def Obligations.DomeTilesLoaded : Prop :=
  (∀ (u : TId) (d cls : R3) (m n : Byte) (s : State), FreeEngine u .dom s → (s.tw u.toNat).spireCount d.toNat = 0 →
     let w := s.tw u.toNat
     let rows := m.toNat + 1
     let cols := n.toNat + 1
     let others := fun t : State => ∀ j, j ≠ d.toNat → Tab.find (t.tw u.toNat).dome j = Tab.find w.dome j
     (∀ c, laneClass cls.toNat = some c → cols ≤ c.side →
       granulesOf cls.toNat rows cols ≤ w.domFree (some d.toNat) →
       ∃ t, Completes (.dmCfg u .whole d cls m n) u .dom s t ∧ t.mem = s.mem ∧ others t ∧
         Tab.find (t.tw u.toNat).dome d.toNat = some ⟨cls.toNat, rows, cols, false, false, []⟩) ∧
     ((laneClass cls.toNat = none ∨ (∃ c, laneClass cls.toNat = some c ∧ c.side < cols) ∨
         w.domFree (some d.toNat) < granulesOf cls.toNat rows cols) →
       ∃ t, exec (.dmCfg u .whole d cls m n) s = .next t ∧ t.f (Reg.domStatCfgErr u.toNat) = 1 ∧
         t.f (Reg.domStatErrTile u.toNat) = d.toNat ∧ (t.tw u.toNat).dome = w.dome ∧ t.mem = s.mem) ∧
     ∀ tile c, Tab.find w.dome d.toNat = some tile → laneClass tile.cls = some c →
       (∃ t, Completes (.dmClr u .whole d) u .dom s t ∧ t.mem = s.mem ∧ others t ∧
         Tab.find (t.tw u.toNat).dome d.toNat = some { tile with inuse := false, guard := false, lanes := [] }) ∧
       ∃ t, Completes (.dmFree u .whole d) u .dom s t ∧ t.mem = s.mem ∧
         (t.tw u.toNat).dome = Tab.del w.dome d.toNat) ∧
  (∀ (u : TId) (d sg e2 : R3) (a : GReg) (fmt : Fmt) (rm : Rm) (s : State), FreeEngine u .dom s → fmtCode fmt < 6 →
     (s.tw u.toNat).spireCount d.toNat = 0 →
     let w := s.tw u.toNat
     let sz := fmtBits fmt / 8
     let term := fun (c : LaneClass) (tile : DomeTile) (j : Nat) =>
       (preloadTerm c (rmResolve rm (s.f (Reg.domFpcsrRm u.toNat)))
         (valOf (fmtKind fmt) (leNat (tileAtRow w e2.toNat (j / tile.n) (j % tile.n * sz) sz)))).1
     (∀ tile c, Tab.find w.dome d.toNat = some tile → laneClass tile.cls = some c → 0 < tile.n → tile.m ≤ 128 →
       tile.n * sz ≤ 256 → ∀ add : Bool,
       ∃ t r, Completes (if add then .dmLdadd u .whole d sg a fmt rm true e2 else .dmLd u .whole d sg a fmt rm true e2) u .dom s t ∧
         t.mem = s.mem ∧ Tab.find (t.tw u.toNat).dome d.toNat = some r ∧ r.cls = tile.cls ∧ r.m = tile.m ∧ r.n = tile.n ∧
         (∀ j < tile.m * tile.n, Tab.get Lane.zero r.lanes j
           = if add then Lane.add c.width (Tab.get Lane.zero tile.lanes j) (term c tile j) else term c tile j) ∧
         (t.tw u.toNat).tiles = w.tiles) ∧
     (Tab.find w.dome d.toNat = none → ∀ i ∈ [Instr.dmLd u .whole d sg a fmt rm true e2, .dmLdadd u .whole d sg a fmt rm true e2,
         .dmFree u .whole d, .dmClr u .whole d, .dmXout u .whole d sg a, .dmXadd u .whole d sg a],
       ∃ t, exec i s = .next t ∧ t.f (Reg.domStatCfgErr u.toNat) = 1 ∧ (t.tw u.toNat).dome = w.dome ∧ t.mem = s.mem))

/-- `dm.xout` writes the lane block of its tile to memory and leaves the tile; `dm.xadd` adds, lane by lane, what a block in
memory holds. A plain `dm.drain` to memory writes every lane, rounded once to the format the control word names, and clears
or frees the tile if the word says so; a control word with a reserved bit is a configuration error. -/
def Obligations.DomeTilesMoved : Prop :=
  (∀ (u : TId) (d sg : R3) (a : GReg) (tile : DomeTile) (c : LaneClass) (fpa : Nat) (s : State), FreeEngine u .dom s →
     (s.tw u.toNat).spireCount d.toNat = 0 → Tab.find (s.tw u.toNat).dome d.toNat = some tile →
     laneClass tile.cls = some c →
     let o := ((s.core (.tower u)).getG a).toNat
     let g := (s.core (.tower u)).getS sg
     let block := laneBlock tile.cls tile.m tile.n ((List.range (tile.m * tile.n)).map (Tab.get Lane.zero tile.lanes))
     (Reaches s u 3 g .write o block.length fpa →
       Memory.wf s.mem = true → ∃ t, Completes (.dmXout u .whole d sg a) u .dom s t ∧ Stored s t (fpa % 2 ^ 45) block ∧
         (t.tw u.toNat).dome = (s.tw u.toNat).dome) ∧
     ∀ (bs : List Byte) (xs : List Lane) (len : Nat), bs = memAt s fpa len → 32 < len → leAt bs 8 4 = len →
       len ≤ 32 + tile.m * tile.n * (8 + 8 * c.words) → blockLanes tile.cls tile.m tile.n bs = some xs →
       xs.length = tile.m * tile.n →
       Reaches s u 3 g .read o 32 fpa → Reaches s u 3 g .read (o + 32) (len - 32) (fpa + 32) →
       ∃ t r, Completes (.dmXadd u .whole d sg a) u .dom s t ∧ t.mem = s.mem ∧
         Tab.find (t.tw u.toNat).dome d.toNat = some r ∧
         ∀ j < tile.m * tile.n, Tab.get Lane.zero r.lanes j
           = Lane.add c.width (Tab.get Lane.zero tile.lanes j) (xs.getD j Lane.zero)) ∧
  (∀ (u : TId) (d sg : R3) (a b : GReg) (tile : DomeTile) (c : LaneClass) (fmt : Fmt) (rm : Rm) (fpa : Nat) (s : State),
     FreeEngine u .dom s → (s.tw u.toNat).spireCount d.toNat = 0 → Tab.find (s.tw u.toNat).dome d.toNat = some tile →
     laneClass tile.cls = some c →
     let o := ((s.core (.tower u)).getG a).toNat
     let g := (s.core (.tower u)).getS sg
     let cw := (s.core (.tower u)).getG b
     let i := Instr.dmDrain u .whole d sg a b
     let lane := Tab.get Lane.zero tile.lanes
     let sz := fmtBits fmt / 8
     let cell := fun j => lane j |>.toFmt (fmtKind fmt) (s.turRm u.toNat (fld cw 10 8)) (s.fb (Reg.turModeP16inf u.toNat)) c.unit
     let n := tile.m * tile.n
     (∀ clr free : Bool, cw.toNat = b2n free * 2 ^ 23 + b2n clr * 2 ^ 22 + fld cw 10 8 * 2 ^ 8 + fmtCode fmt →
       fmtCode fmt < 6 → fld cw 10 8 ≠ 5 → fld cw 10 8 ≠ 6 → 0 < n →
       Reaches s u 3 g .write o (n * sz) fpa → Memory.wf s.mem = true →
       ∃ t, Completes i u .dom s t ∧
         Stored s t (fpa % 2 ^ 45) ((List.range n).flatMap (fun j => leBytes sz (cell j).1)) ∧
         (t.tw u.toNat).dome = if free then Tab.del (s.tw u.toNat).dome d.toNat
           else if clr then Tab.set (s.tw u.toNat).dome d.toNat { tile with inuse := false, guard := false, lanes := [] }
           else (s.tw u.toNat).dome) ∧
     (fld cw 63 40 ≠ 0 ∨ fld cw 10 8 = 5 ∨ 6 ≤ fld cw 3 0 → ∃ t, exec i s = .next t ∧
       t.f (Reg.domStatCfgErr u.toNat) = 1 ∧ (t.tw u.toNat).dome = (s.tw u.toNat).dome ∧ t.mem = s.mem))

/-- The Spire: `sp.cfg` sets formats and drops the latch sets where they change, `sp.lds` and `sp.ldsm` fill the shadow set,
`sp.drop` empties both, and a reserved control word, a missing set or an invalid pair of formats is an error with its code.
`sp.ldsm` fills the shadow set from rows of the Tower's own store, a pitch apart. -/
def Obligations.SpireLoads : Prop :=
  (∀ (u : TId) (e2 sg : R3) (a b : GReg) (k n : BitVec 7) (s : State), FreeEngine u .spr s →
     let w := s.tw u.toNat
     let T := u.toNat
     let v := (s.core (.tower u)).getG a
     let wf := s.f (Reg.sprCfgWfmt T)
     let stat := s.fb (Reg.sprCfgStat T)
     let error := fun (i : Instr) (code : Nat) => ∃ t, exec i s = .next t ∧ t.f (Reg.sprStatCfgErr T) = 1 ∧
       t.f (Reg.sprStatErrCode T) = code ∧ t.mem = s.mem ∧ (t.tw T).active = w.active ∧ (t.tw T).shadow = w.shadow
     (fld v 63 16 = 0 → fld v 7 6 = 0 → fld v 3 1 = 0 → fld v 5 4 ≠ 3 → spireClass (fld v 11 8) (fld v 15 12) ≠ none →
       ∃ t, Completes (.spCfg u .whole a) u .spr s t ∧ t.rd (Reg.sprCfg T) = v ∧ t.mem = s.mem ∧
         (if wf ≠ fld v 11 8 ∨ s.f (Reg.sprCfgStat T) ≠ fld v 0 0 then (t.tw T).active = none ∧ (t.tw T).shadow = none
          else (t.tw T).active = w.active ∧ (t.tw T).shadow = w.shadow)) ∧
     (spireClass (fld v 11 8) (fld v 15 12) = none ∨ fld v 5 4 = 3 ∨ fld v 63 16 ≠ 0 → error (.spCfg u .whole a) 5) ∧
     (∃ t, Completes (.spDrop u .whole) u .spr s t ∧ (t.tw T).active = none ∧ (t.tw T).shadow = none ∧ t.mem = s.mem) ∧
     (w.shadow = none → k.toNat + 1 ≤ sideOf wf → n.toNat + 1 ≤ sideOf wf →
       (let shape := if stat then (n.toNat + 1, k.toNat + 1) else (k.toNat + 1, n.toNat + 1)
        shape.2 * spBytes wf ≤ 256 → ∃ t la, Completes (.spLds u .whole e2 k n) u .spr s t ∧ t.mem = s.mem ∧
         (t.tw T).active = w.active ∧ (t.tw T).shadow = some la ∧ la.k = k.toNat + 1 ∧ la.n = n.toNat + 1 ∧ la.wfmt = wf ∧
         ∀ r < shape.1, ∀ j < shape.2,
           Tab.get 0 la.el (if stat then j * 128 + r else r * 128 + j)
             = BitVec.ofNat 64 (leNat (tileAtRow w e2.toNat r (j * spBytes wf) (spBytes wf))))) ∧
     (w.shadow = none → sideOf wf < k.toNat + 1 → error (.spLds u .whole e2 k n) 4) ∧
     (w.shadow = none → (let cw := (s.core (.tower u)).getG b; fld cw 63 40 ≠ 0 ∨ bit cw 15 = true ∨ bit cw 7 = true) →
       error (.spLdsm u .whole sg a b) 6)) ∧
  (∀ (u : TId) (sg : R3) (a b : GReg) (fpa : Nat) (s : State), FreeEngine u .spr s → (s.tw u.toNat).shadow = none →
     let T := u.toNat
     let wf := s.f (Reg.sprCfgWfmt T)
     let stat := s.fb (Reg.sprCfgStat T)
     let g := (s.core (.tower u)).getS sg
     let o := ((s.core (.tower u)).getG a).toNat
     let cw := (s.core (.tower u)).getG b
     let k := fld cw 6 0 + 1
     let n := fld cw 14 8 + 1
     let pitch := fld cw 39 16
     let shape := if stat then (n, k) else (k, n)
     let rb := shape.2 * spBytes wf
     let len := (shape.1 - 1) * pitch + rb
     fld cw 63 40 = 0 → bit cw 15 = false → bit cw 7 = false → k ≤ sideOf wf → n ≤ sideOf wf → rb ≤ 256 → rb ≤ pitch →
     (g.base + o) % spBytes wf = 0 → g.check .read o len = none → Reaches s u 5 g .read o len fpa →
     s.place fpa = .store T →
     ∃ t la, Completes (.spLdsm u .whole sg a b) u .spr s t ∧ t.mem = s.mem ∧ (t.tw T).shadow = some la ∧ la.k = k ∧ la.n = n ∧
       ∀ r < shape.1, ∀ j < shape.2, Tab.get 0 la.el (if stat then j * 128 + r else r * 128 + j)
         = BitVec.ofNat 64 (leNat (memAt s (fpa + r * pitch + j * spBytes wf) (spBytes wf))))

/-- `sp.mm` adds, into each lane of its rows, the group sums of the products of the streamed row with the stationary
columns, counts its rows and with SWAP makes the shadow set active; without a set it is an error, and a residue mismatch of the
product is a machine check. Filler work only counts.
-/
def Obligations.SpireMultiply : Prop :=
  (∀ (u : TId) (d e2 : R3) (a : GReg) (swap : Bool) (s : State), FreeEngine u .spr s →
    let w := s.tw u.toNat
    let T := u.toNat
    let cw := (s.core (.tower u)).getG a
    let m := fld cw 6 0 + 1
    let drow := fld cw 15 8
    let srow := fld cw 22 16
    let sf := s.f (Reg.sprCfgSfmt T)
    let i := Instr.spMm u .whole d e2 a swap
    fld cw 63 23 = 0 → bit cw 7 = false →
    (∀ la tile c, (if swap then w.shadow else w.active) = some la → Tab.find w.dome d.toNat = some tile →
      laneClass tile.cls = some c → spireClass la.wfmt sf = some tile.cls → la.n ≤ tile.n → drow + m ≤ tile.m →
      srow + m ≤ 128 → w.qDom = [] → 0 < la.k →
      ∃ t r, Completes i u .spr s t ∧ t.mem = s.mem ∧ Tab.find (t.tw T).dome d.toNat = some r ∧
        r.cls = tile.cls ∧ r.m = tile.m ∧ r.n = tile.n ∧
        t.f (Reg.sprRowsRows T) = (s.f (Reg.sprRowsRows T) + m) % 2 ^ 64 ∧
        (swap = true → (t.tw T).active = some la ∧ (t.tw T).shadow = none) ∧
        ∀ row < tile.m, ∀ col < tile.n,
          Tab.get Lane.zero r.lanes (row * tile.n + col) =
            if drow ≤ row ∧ row < drow + m ∧ col < la.n then
              let sv := elems (8 * spBytes sf) (tileAtRow w e2.toNat (srow + (row - drow)) 0 (la.k * spBytes sf)) la.k
              let kind := fun z => fmtKind ((fmtOfCode z).getD .pip8a)
              let ps := (List.range la.k).map (fun j => laneProduct c.unit (valOf (kind sf) ((sv[j]?).getD 0))
                (valOf (kind la.wfmt) (Tab.get 0 la.el (j * 128 + col)).toNat))
              ((groupsOf (4 * 2 ^ s.f (Reg.sprCfgGroup T)) la.k ps).map laneSum).foldl (Lane.add c.width)
                (Tab.get Lane.zero tile.lanes (row * tile.n + col))
            else Tab.get Lane.zero tile.lanes (row * tile.n + col)) ∧
    ((if swap then w.shadow else w.active) = none → ∃ t, exec i s = .next t ∧ t.f (Reg.sprStatCfgErr T) = 1 ∧
      t.f (Reg.sprStatErrCode T) = (if swap then 1 else 2) ∧ (t.tw T).dome = w.dome ∧ t.mem = s.mem) ∧
    ∃ t, exec (.spMm u (.upset .residue) d e2 a swap) s = .next t ∧ MachineChecked u s t) ∧
  ∀ (u : TId) (s : State), s.filling u.toNat = true → ∃ t, exec (.fillerWork u) s = .next t ∧ t.towers = s.towers ∧
    t.mem = s.mem ∧ t.f (Reg.sprFillCntFill u.toNat) = (s.f (Reg.sprFillCntFill u.toNat) + 1) % 2 ^ 64

/-- The Turret: `tu.ptr` sets a pointer, `tu.prog` stores a well-formed program of 512 bytes of the own store in its slot
and marks the slot, and refuses another with its error code; `tu.run` with an empty slot is an error. `tu.run` of the empty
program of slot 0 from one tile register to another converts each element once, counts the elements and leaves the other
tiles. -/
def Obligations.TurretWork : Prop :=
  (∀ (u : TId) (sg : R3) (a b : GReg) (fpa : Nat) (s : State), FreeEngine u .tur s →
     let w := s.tw u.toNat
     let T := u.toNat
     let k := s.core (.tower u)
     (∀ p fmt, fmtCode fmt < 10 → p ≠ 3 → ∃ t, Completes (.tuPtr u .whole p false sg a fmt) u .tur s t ∧ t.mem = s.mem ∧
       ∀ q, Tab.get {} (t.tw T).turPtrs q =
         if q = p.toNat then { tile := false, num := sg.toNat, seg := k.getS sg, addr := k.getG a, fmt := fmtCode fmt }
         else Tab.get {} w.turPtrs q) ∧
     (let o := (k.getG b).toNat
      a ≠ 0 → (k.getS sg).check .read o 512 = none → ((k.getS sg).base + o) % 64 = 0 →
      Reaches s u 4 (k.getS sg) .read o 512 fpa → s.place fpa = .store T →
       (∀ p, parseProg (memAt s fpa 512) = some p → ∃ t, Completes (.tuProg u .whole a sg b) u .tur s t ∧ t.mem = s.mem ∧
         bit (t.rd (Reg.turProgv T)) a.toNat = true ∧
         ∀ j, Tab.find (t.tw T).turSlots j = if j = a.toNat then some (memAt s fpa 512) else Tab.find w.turSlots j) ∧
       (parseProg (memAt s fpa 512) = none → ∃ t, exec (.tuProg u .whole a sg b) s = .next t ∧
         t.f (Reg.turStatErr T) = 1 ∧ t.f (Reg.turStatErrCode T) = 1 ∧ (t.tw T).turSlots = w.turSlots ∧ t.mem = s.mem)) ∧
     ∀ count hist, count ≠ 0 → a ≠ 0 → Tab.find w.turSlots a.toNat = none →
       ∃ t, exec (.tuRun u .whole a count hist) s = .next t ∧ t.f (Reg.turStatErr T) = 1 ∧
         t.f (Reg.turStatErrCode T) = 2 ∧ t.mem = s.mem ∧ (t.tw T).tiles = w.tiles) ∧
  (∀ (u : TId) (count : Half) (s : State), FreeEngine u .tur s → count ≠ 0 →
     let w := s.tw u.toNat
     let T := u.toNat
     let src := Tab.get {} w.turPtrs 0
     let dst := Tab.get {} w.turPtrs 2
     Tab.find w.turSlots 0 = none → src.tile = true → dst.tile = true → src.num ≠ dst.num → src.num < 8 → dst.num < 8 →
     ∀ f g, fmtOfCode src.fmt = some f → fmtOfCode dst.fmt = some g → 8 ≤ fmtBits f → 8 ≤ fmtBits g →
     count.toNat * (fmtBits f / 8) ≤ 32768 → count.toNat * (fmtBits g / 8) ≤ 32768 →
     ∃ t, Completes (.tuRun u .whole 0 count false) u .tur s t ∧ t.mem = s.mem ∧
       t.f (Reg.turElemsElems T) = (s.f (Reg.turElemsElems T) + count.toNat) % 2 ^ 64 ∧
       (∀ j, ¬ (dst.num * 32768 ≤ j ∧ j < dst.num * 32768 + count.toNat * (fmtBits g / 8)) →
         Tab.get 0 (t.tw T).tiles j = Tab.get 0 w.tiles j) ∧
       ∀ j < count.toNat, leNat (tileAtRow (t.tw T) dst.num 0 (j * (fmtBits g / 8)) (fmtBits g / 8))
         = (convert f g (s.turRm T 7) (s.fb (Reg.turModeP16inf T))
             (leNat (tileAtRow w src.num 0 (j * (fmtBits f / 8)) (fmtBits f / 8)))).1 % 2 ^ fmtBits g)

/-- Tile instructions inside the Tower: `tmv` copies rows, `tmv.vt` and `tmv.tv` copy half a tile from and to a vector
register, `tclr` clears a tile and its in-use flag; rows beyond 128 are an error. `tld` of one row fills the row's extent
from memory and `tst` of one row writes it there; `TWR_TCFGn` takes an extent that R209 allows, from the driver only while
no step holds the Tower, and leaves any other. -/
def Obligations.TileWork : Prop :=
  (∀ (u : TId) (d e2 : R3) (a v : GReg) (h : Bool) (s : State), FreeEngine u .tile s →
     let w := s.tw u.toNat
     let T := u.toNat
     let cw := (s.core (.tower u)).getG a
     let rows := fld cw 6 0 + 1
     let drow := fld cw 14 8
     let srow := fld cw 22 16
     let tile := fun (x : Tower) (j : Nat) => Tab.get 0 x.tiles j
     let inuse := fun (t : State) => bit (t.rd (Reg.twrTstat T)) (16 + d.toNat)
     (srow + rows ≤ 128 → drow + rows ≤ 128 → fld cw 63 23 = 0 → bit cw 15 = false → bit cw 7 = false →
       ∃ t, Completes (.tmv u .whole d e2 a) u .tile s t ∧ t.mem = s.mem ∧ inuse t = true ∧
         ∀ j, tile (t.tw T) j =
           if d.toNat * 32768 + drow * 256 ≤ j ∧ j < d.toNat * 32768 + (drow + rows) * 256
           then tile w (j - (d.toNat * 32768 + drow * 256) + (e2.toNat * 32768 + srow * 256)) else tile w j) ∧
     (128 < srow + rows ∨ 128 < drow + rows → ∃ t, exec (.tmv u .whole d e2 a) s = .next t ∧
       t.f (Reg.twrTstatErr T) = 1 ∧ t.f (Reg.twrTstatErrCode T) = 1 ∧ (t.tw T).tiles = w.tiles ∧ t.mem = s.mem) ∧
     (∃ t, Completes (.tmvVt u .whole d v h) u .tile s t ∧ t.mem = s.mem ∧ inuse t = true ∧
       ∀ j, tile (t.tw T) j =
         if d.toNat * 32768 + b2n h * 16384 ≤ j ∧ j < d.toNat * 32768 + b2n h * 16384 + 16384
         then Tab.get 0 w.vregs (v.toNat * 16384 + (j - (d.toNat * 32768 + b2n h * 16384))) else tile w j) ∧
     (∃ t, Completes (.tmvTv u .whole v e2 h) u .tile s t ∧ t.mem = s.mem ∧ bit (t.rd (Reg.vecInuse T)) v.toNat = true ∧
       (t.tw T).tiles = w.tiles ∧
       ∀ j, Tab.get 0 (t.tw T).vregs j =
         if v.toNat * 16384 ≤ j ∧ j < v.toNat * 16384 + 16384
         then tile w (e2.toNat * 32768 + b2n h * 16384 + (j - v.toNat * 16384)) else Tab.get 0 w.vregs j) ∧
     (Tab.sortedFrom 0 w.tiles = true → ∃ t, Completes (.tclr u .whole d) u .tile s t ∧ t.mem = s.mem ∧ inuse t = false ∧
       ∀ j, tile (t.tw T) j = if j / 32768 = d.toNat then 0 else tile w j)) ∧
  ((∀ (u : TId) (d sg : R3) (a b : GReg) (fpa : Nat) (s : State), FreeEngine u .tile s →
     let w := s.tw u.toNat
     let T := u.toNat
     let o := ((s.core (.tower u)).getG a).toNat
     let g := (s.core (.tower u)).getS sg
     let cw := (s.core (.tower u)).getG b
     let row := fld cw 14 8
     let rb := s.f (Reg.twrTcfgRbytes T d.toNat)
     fld cw 6 0 = 0 → row < 128 → fld cw 63 40 = 0 → bit cw 15 = false → bit cw 7 = false → fld cw 39 16 % 8 = 0 → o % 8 = 0 →
     s.f (Reg.twrTstartRow T) = 0 →
     (Reaches s u 2 g .read o rb fpa →
       ∃ t, Completes (.tld u .whole d sg a b) u .tile s t ∧ t.mem = s.mem ∧
         tileAtRow (t.tw T) d.toNat row 0 rb = memAt s fpa rb ∧
         ∀ j, ¬ (d.toNat * 32768 + row * 256 ≤ j ∧ j < d.toNat * 32768 + row * 256 + rb) →
           Tab.get 0 (t.tw T).tiles j = Tab.get 0 w.tiles j) ∧
     (Reaches s u 2 g .write o rb fpa →
       Memory.wf s.mem = true →
       ∃ t, Completes (.tst u .whole sg a d b) u .tile s t ∧ (t.tw T).tiles = w.tiles ∧
         Stored s t (fpa % 2 ^ 45) (tileAtRow w d.toNat row 0 rb))) ∧
   ∀ (u : TId) (n : R3) (v : Dword) (s : State),
     let T := u.toNat
     let good := 1 ≤ fld v 7 0 ∧ fld v 7 0 ≤ 128 ∧ 8 ≤ fld v 24 16 ∧ fld v 24 16 ≤ 256 ∧ fld v 24 16 % 8 = 0
     ((s.tw T).step = none → good → ∃ t, exec (.twrTcfgn true u n v) s = .next t ∧ t.towers = s.towers ∧ t.mem = s.mem ∧
       t.f (Reg.twrTcfgRows T n.toNat) = fld v 7 0 ∧ t.f (Reg.twrTcfgRbytes T n.toNat) = fld v 24 16) ∧
     ((s.tw T).step ≠ none ∨ ¬ good → exec (.twrTcfgn true u n v) s = .next s) ∧
     (s.issuing (.tower u) = true → EnginesIdle (s.tw T) → s.f (Reg.twrTstatStopped T) = 0 → good →
       ∃ t, exec (.twrTcfgn false u n v) s = .next t ∧ t.core (.tower u) = passed (s.core (.tower u)) ∧
         t.f (Reg.twrTcfgRows T n.toNat) = fld v 7 0 ∧ t.f (Reg.twrTcfgRbytes T n.toNat) = fld v 24 16))

/-- An arithmetic instruction computes each active element below VL from the same elements of its sources and leaves every
other element; its operand B may be a scalar. The flags and saturations of the active elements, and of the scalar's one
conversion, are recorded. Integer elements are words of their width: sums, differences and products wrap, and a shift takes its
amount modulo the width; they raise no flag. -/
def Obligations.VectorElementwise : Prop :=
  ∀ (u : TId) (o : VArith) (f : Fmt) (s : State), VectorReady u f s →
    let w := s.tw u.toNat
    let vl := s.f (Reg.vecSpanVl u.toNat)
    vl * fmtBits f ≤ 131072 →
    let act := (List.range vl).filter (admits w o.m o.k)
    let lane := fun (op : LOp) (j : Nat) =>
      laneOp f op (rmResolve .dyn (s.f (Reg.vecFpcsrRm u.toNat))) (s.fb (Reg.vecModeP16inf u.toNat))
        (element w o.a f vl j) (operandB u o f s j) (element w o.d f vl j)
    let row := fun (i : Issue → VArith → Instr) (op : LOp) => ∃ t, Completes (i .whole o) u .vec s t ∧
      WritesElements u o.d f vl (fun j => if admits w o.m o.k j then some (lane op j).1 else none) s t ∧
      RecordsFlags u (scalarFlags u o f s :: act.map (fun j => (lane op j).2)) s t
    let int := fun (i : Issue → VArith → Instr) (g : ∀ n, BitVec n → BitVec n → BitVec n) =>
      ∃ t, Completes (i .whole o) u .vec s t ∧ RecordsFlags u [] s t ∧
      WritesElements u o.d f vl (fun j => if admits w o.m o.k j then
        some (g (fmtBits f) (BitVec.ofNat _ (element w o.a f vl j)) (BitVec.ofNat _ (operandB u o f s j))).toNat else none) s t
    (isInt f = true → int (.vadd u) (fun _ x y => x + y) ∧ int (.vsub u) (fun _ x y => x - y) ∧
      int (.vmul u) (fun _ x y => x * y) ∧ int (.vneg u) (fun _ x _ => -x) ∧ int (.vabs u) (fun _ x _ => if x.msb then -x else x) ∧
      int (.vmin u) (fun _ x y => if y.slt x then y else x) ∧ int (.vmax u) (fun _ x y => if x.slt y then y else x) ∧
      int (.vand u) (fun _ x y => x &&& y) ∧ int (.vor u) (fun _ x y => x ||| y) ∧ int (.vxor u) (fun _ x y => x ^^^ y) ∧
      int (.vsll u) (fun n x y => x <<< (y.toNat % n)) ∧ int (.vsrl u) (fun n x y => x >>> (y.toNat % n)) ∧
      int (.vsra u) (fun n x y => x.sshiftRight (y.toNat % n)) ∧ int (.vmv u) (fun _ x _ => x)) ∧
    row (.vadd u) .add ∧ row (.vsub u) .sub ∧ row (.vneg u) .neg ∧ row (.vmv u) .mv ∧
    (isComplex f = false → row (.vmul u) .mul ∧ row (.vmin u) .min ∧ row (.vmax u) .max ∧ row (.vabs u) .abs) ∧
    (f = .b32 ∨ f = .b64 → row (.vdiv u) .div ∧ (o.b = 0 → row (.vsqrt u) .sqrt)) ∧
    (isFloat f = true → row (.vfma u) .fma ∧ row (.vfms u) .fms) ∧
    (isInt f = true → row (.vand u) .and ∧ row (.vor u) .or ∧ row (.vxor u) .xor ∧ row (.vsll u) .sll ∧
      row (.vsrl u) .srl ∧ row (.vsra u) .sra) ∧
    (isComplex f = true → row (.vcmul u) .cmul ∧ row (.vcmac u) .cmac ∧ row (.vconj u) .conj) ∧
    (o.m = true → ∃ t, Completes (.vmerge u .whole o) u .vec s t ∧
      WritesElements u o.d f vl (fun j => some (if w.mbit o.k.toNat j then element w o.a f vl j else operandB u o f s j)) s t ∧
      RecordsFlags u [scalarFlags u o f s] s t)

/-- Compares write one mask bit to each active element and record its flags; the mask instructions combine masks below VL; `vrel` clears a
register and its in-use bit. `vspan` sets the vector length to the least of gA and what a register holds of the format, and
gives it to gD; a code that is no format leaves FMT_BAD and 0. With the vector unit idle, `vmpopc` counts the mask bits
below VL, `vmfirst` gives the first or −1, and `vext` the element that gB names; a unit that an error has stopped makes them
wait. -/
def Obligations.VectorMasksAndResults : Prop :=
  (∀ (u : TId) (o : VArith) (f : Fmt) (s : State), VectorReady u f s →
     let w := s.tw u.toNat
     let vl := s.f (Reg.vecSpanVl u.toNat)
     vl ≤ 32768 →
     let row := fun (i : Issue → VArith → Instr) (p : Pred) => ∃ t, Completes (i .whole o) u .vec s t ∧
       WritesMask u o.d.toNat vl (fun j => if admits w o.m o.k j then
         some (lanePred f p (element w o.a f vl j) (operandB u o f s j)).1 else none) s t ∧
       RecordsFlags u (scalarFlags u o f s :: ((List.range vl).filter (admits w o.m o.k)).map (fun j =>
         (lanePred f p (element w o.a f vl j) (operandB u o f s j)).2)) s t
     (o.d.toNat < 8 → row (.vcmpeq u) .eq ∧ row (.vcmpun u) .un ∧
       (isComplex f = false → row (.vcmplt u) .lt ∧ row (.vcmple u) .le)) ∧
     (∀ d a b : R3,
       (∃ t, Completes (.vmand u .whole d a b) u .vec s t ∧
         WritesMask u d.toNat vl (fun j => some (w.mbit a.toNat j && w.mbit b.toNat j)) s t) ∧
       (∃ t, Completes (.vmor u .whole d a b) u .vec s t ∧
         WritesMask u d.toNat vl (fun j => some (w.mbit a.toNat j || w.mbit b.toNat j)) s t) ∧
       (∃ t, Completes (.vmxor u .whole d a b) u .vec s t ∧
         WritesMask u d.toNat vl (fun j => some (w.mbit a.toNat j != w.mbit b.toNat j)) s t) ∧
       ∃ t, Completes (.vmnot u .whole d a) u .vec s t ∧
         WritesMask u d.toNat vl (fun j => some (!w.mbit a.toNat j)) s t) ∧
     ∀ r : GReg, Tab.sortedFrom 0 w.vregs = true → ∃ t, Completes (.vrel u .whole r) u .vec s t ∧ t.mem = s.mem ∧
       bit (t.rd (Reg.vecInuse u.toNat)) r.toNat = false ∧
       ∀ x, Tab.get 0 (t.tw u.toNat).vregs x = if x / 16384 = r.toNat then 0 else Tab.get 0 w.vregs x) ∧
  (∀ (u : TId) (d a b : GReg) (s : State), let c := CoreId.tower u
     s.issuing c = true →
     let k := s.core c
     let n := u.toNat
     let gives := fun (i : Instr) (v : Dword) => ∃ t, exec i s = .next t ∧ WritesG k (t.core c) d v ∧
       t.core c = { passed k with g := (t.core c).g } ∧ t.mem = s.mem
     (∀ (code : BitVec 4) (f : Fmt), fmtOfCode code.toNat = some f → ∃ t, exec (.vspan u d a code) s = .next t ∧
       t.f (Reg.vecSpanVl n) = min (k.getG a).toNat (131072 / fmtBits f) ∧ t.f (Reg.vecSpanFmt n) = code.toNat ∧
       t.f (Reg.vecSpanFmtBad n) = 0 ∧
       WritesG k (t.core c) d (BitVec.ofNat 64 (min (k.getG a).toNat (131072 / fmtBits f))) ∧ t.mem = s.mem) ∧
     (∀ code : BitVec 4, fmtOfCode code.toNat = none → ∃ t, exec (.vspan u d a code) s = .next t ∧
       t.f (Reg.vecSpanVl n) = 0 ∧ t.f (Reg.vecSpanFmtBad n) = 1 ∧ WritesG k (t.core c) d 0) ∧
     (EnginesIdle (s.tw n) → (s.tw n).sVec = .error → ∀ (m : R3) (f : Bool),
       ∀ i ∈ [Instr.vmpopc u d m, .vmfirst u d m, .vext u d a b f],
         exec i s = .next (s.setCore c (waitsAt k (.engineResult 1) i))) ∧
     (EnginesIdle (s.tw n) → (s.tw n).sVec = .running → s.f (Reg.vecSpanFmtBad n) = 0 →
       let vl := s.f (Reg.vecSpanVl n)
       let w := s.tw n
       (∀ m : R3, gives (.vmpopc u d m) (BitVec.ofNat 64 ((List.range vl).countP (w.mbit m.toNat))) ∧
         (∀ i < vl, w.mbit m.toNat i = true → (∀ j < i, w.mbit m.toNat j = false) →
           gives (.vmfirst u d m) (BitVec.ofNat 64 i)) ∧
         ((∀ i < vl, w.mbit m.toNat i = false) → gives (.vmfirst u d m) (-1))) ∧
       ∀ f, fmtOfCode (s.f (Reg.vecSpanFmt n)) = some f → 8 ≤ fmtBits f → (k.getG b).toNat < vl →
         let bytes := fmtBits f / 8
         let x := leNat (Tab.getAll 0 w.vregs (a.toNat * 16384 + (k.getG b).toNat * bytes) bytes)
         ∃ t, exec (.vext u d a b false) s = .next t ∧ t.mem = s.mem ∧ (t.core c).pc = k.pc + 4 ∧
           (d ≠ 0 → ((t.core c).getG d).toNat % 2 ^ fmtBits f = x % 2 ^ min 64 (fmtBits f)) ∧
           ∀ r, r ≠ d → (t.core c).getG r = k.getG r))

/-- Reductions of the active elements and operand B into element 0; widening products, the four-term dot product and
conversions, element by element, each with the flags of its results; a pair that R241 and R243 forbid and a vector length that is no multiple of 4 are errors.
-/
def Obligations.VectorReduceAndWiden : Prop :=
  ∀ (u : TId) (o : VArith) (f : Fmt) (s : State), VectorReady u f s →
    let w := s.tw u.toNat
    let T := u.toNat
    let vl := s.f (Reg.vecSpanVl T)
    let rm := rmResolve .dyn (s.f (Reg.vecFpcsrRm T))
    let pi := s.fb (Reg.vecModeP16inf T)
    vl * fmtBits f ≤ 131072 →
    let act := ((List.range vl).filter (admits w o.m o.k)).map (element w o.a f vl)
    let error := fun (i : Instr) (code : Nat) => ∃ t, exec i s = .next t ∧ t.f (Reg.vecStatErr T) = 1 ∧
      t.f (Reg.vecStatErrCode T) = code ∧ (t.tw T).vregs = w.vregs ∧ t.mem = s.mem
    let sc := scalarFlags u o f s
    let live := fun (n : Nat) (m : Bool) (k : R3) => (List.range n).filter (admits w m k)
    let reduces := fun (i : Instr) (r : Nat × Fl) => ∃ t, Completes i u .vec s t ∧
      WritesElements u o.d f vl (fun j => if j = 0 then some r.1 else none) s t ∧ RecordsFlags u [sc, r.2] s t
    (0 < vl →
      reduces (.vredsum u .whole o) (if act = [] then (operandB u o f s 0, {}) else sumElems f rm pi (operandB u o f s 0 :: act)) ∧
      (isComplex f = false →
        reduces (.vredmax u .whole o) (extElems true f (operandB u o f s 0) act) ∧
        reduces (.vredmin u .whole o) (extElems false f (operandB u o f s 0) act))) ∧
    (∀ g, wideFmt f = some g → vl * fmtBits g ≤ 262144 → o.d.toNat % 2 = 0 → o.a ≠ o.d → o.a.toNat ≠ o.d.toNat + 1 →
      (o.sc = true ∨ (o.b ≠ o.d ∧ o.b.toNat ≠ o.d.toNat + 1)) → ∀ acc : Bool,
      let wide := fun j => wideOp f g rm (element w o.a f vl j) (operandB u o f s j)
        (if acc then some (element w o.d g vl j) else none)
      ∃ t, Completes (if acc then .vwmacc u .whole o else .vwmul u .whole o) u .vec s t ∧
        WritesElements u o.d g vl (fun j => if admits w o.m o.k j then some (wide j).1 else none) s t ∧
        RecordsFlags u (sc :: (live vl o.m o.k).map (fun j => (wide j).2)) s t) ∧
    (∀ g, wideFmt f = some g → o.d.toNat % 2 = 1 → error (.vwmul u .whole o) 2 ∧ error (.vwmacc u .whole o) 2) ∧
    (∀ g, dotFmt f = some g → o.d ≠ o.a → (o.sc = true ∨ o.d ≠ o.b) →
      (vl % 4 ≠ 0 → error (.vwdot u .whole o) 3) ∧
      (vl % 4 = 0 →
        let dot := fun j => dotElem f g rm (element w o.d g (vl / 4) j)
          ((List.range 4).map (fun i => (element w o.a f vl (4 * j + i), operandB u o f s (4 * j + i))))
        ∃ t, Completes (.vwdot u .whole o) u .vec s t ∧
        WritesElements u o.d g (vl / 4) (fun j => if admits w o.m o.k (4 * j) then some (dot j).1 else none) s t ∧
        RecordsFlags u (sc :: ((List.range (vl / 4)).filter (fun j => admits w o.m o.k (4 * j))).map (fun j => (dot j).2)) s t)) ∧
    ∀ (d a : GReg) (g : Fmt) (mode : Rm) (m : Bool) (k : R3), isComplex f = isComplex g → vl * fmtBits g ≤ 131072 →
      let conv := fun j => convert f g (rmResolve mode (s.f (Reg.vecFpcsrRm T))) pi (element w a f vl j)
      ∃ t, Completes (.vcvt u .whole d a g mode m k) u .vec s t ∧
        WritesElements u d g vl (fun j => if admits w m k j then some (conv j).1 else none) s t ∧
        RecordsFlags u ((live vl m k).map (fun j => (conv j).2)) s t

/-- A vector load or store of one element reaches the element's bytes at the offset its form gives — unit stride, a stride
or an index — and `vprobe` counts the elements that would fault and marks them in its mask. -/
def Obligations.VectorMemory : Prop :=
  ∀ (u : TId) (form : VForm) (o : VMem) (f : Fmt) (fpa : Nat) (s : State), VectorReady u f s → 8 ≤ fmtBits f →
    let w := s.tw u.toNat
    let T := u.toNat
    let k := s.core (.tower u)
    let n := fmtBits f / 8
    let vx := leNat (Tab.getAll 0 w.vregs (o.b.toNat * 16384) 4)
    let off := match form with
      | .unit => (k.getG o.a).toNat
      | .strided => (k.getG o.a).toNat
      | .indexed => ((k.getG o.a).toNat + vx * n) % 2 ^ 64
    s.f (Reg.vecSpanVl T) = 1 → admits w o.m o.k 0 = true → off % n = 0 →
    (form = .strided → (k.getG o.b).toNat % n = 0) →
    let ld := match form with | .unit => Instr.vld u .whole o | .strided => .vlds u .whole o | .indexed => .vldx u .whole o
    let st := match form with | .unit => Instr.vst u .whole o | .strided => .vsts u .whole o | .indexed => .vstx u .whole o
    (Reaches s u 1 (k.getS o.s) .read off n fpa → ∃ t, Completes ld u .vec s t ∧
      WritesElements u o.v f 1 (fun _ => some (leNat (memAt s fpa n))) s t) ∧
    (Reaches s u 1 (k.getS o.s) .write off n fpa → Memory.wf s.mem = true → ∃ t, Completes st u .vec s t ∧
      (t.tw T).vregs = w.vregs ∧ Stored s t (fpa % 2 ^ 45) (Tab.getAll 0 w.vregs (o.v.toNat * 16384) n)) ∧
    (o.v.toNat < 8 →
      (Reaches s u 1 (k.getS o.s) .read off n fpa → ∃ t, Completes (.vprobe u .whole form o) u .vec s t ∧
        WritesMask u o.v.toNat 1 (fun _ => some false) s t ∧ t.f (Reg.vecProbeCntCount T) = 0) ∧
      ((k.getS o.s).null = true → ∃ t, Completes (.vprobe u .whole form o) u .vec s t ∧
        WritesMask u o.v.toNat 1 (fun _ => some true) s t ∧ t.f (Reg.vecProbeCntCount T) = 1))

/-- Streams: `st.shp` sets a slot's shape, and reserved shape bits are a stream error; `st.sig` sets its bit, and an address
that is no bit is a stream error. Streams move data: a one-row copy moves its bytes from its source to its destination, a
one-row fill repeats its value over the destination, each counts the bytes written and, with EVT, sets its slot's event and
latches source 3; a descriptor that waits at the head of its slot does the same when it completes. -/
def Obligations.StreamWork : Prop :=
  (∀ (u : TId) (k : BitVec 4) (sd ss : R3) (a b : GReg) (s : State), FreeEngine u .str s →
     let w := s.tw u.toNat
     let T := u.toNat
     let ga := (s.core (.tower u)).getG a
     let gb := (s.core (.tower u)).getG b
     let slot := Tab.get {} w.slots k.toNat
     (∀ j, (Tab.get {} w.slots j).fifo = []) → slot.stopped = 0 → slot.aheadStop = false →
     slot.row = 0 → slot.byte = 0 →
     (fld gb 63 48 = 0 → fld gb 31 26 = 0 → ∃ t, Completes (.stShp u .whole k a b) u .str s t ∧ t.mem = s.mem ∧
       ∀ j, Tab.get {} (t.tw T).slots j = if j = k.toNat then { slot with shp := ga, shq := gb } else Tab.get {} w.slots j) ∧
     (fld gb 31 26 ≠ 0 → ∃ t, exec (.stShp u .whole k a b) s = .next t ∧ t.f (Reg.accStatErr T) = 1 ∧
       t.f (Reg.accStatErrCode T) = 2 ∧ t.mem = s.mem) ∧
     (∀ off : BitVec 11, ga.toNat + off.toNat < 65536 → ∃ t, Completes (.stSig u .whole k a off) u .str s t ∧ t.mem = s.mem ∧
       ∀ j, Tab.get false (t.tw T).localBits j = if j = ga.toNat + off.toNat then true else Tab.get false w.localBits j) ∧
     (∀ off : BitVec 11, 4 * 65536 ≤ ga.toNat + off.toNat → ∃ t, exec (.stSig u .whole k a off) s = .next t ∧
       t.f (Reg.accStatErr T) = 1 ∧ t.f (Reg.accStatErrCode T) = 4 ∧ t.mem = s.mem)) ∧
  (∀ (u : TId) (k : BitVec 4) (sd ss : R3) (a b : GReg) (n fpa fpb : Nat) (s : State), FreeEngine u .str s →
     let w := s.tw u.toNat
     let T := u.toNat
     let ga := (s.core (.tower u)).getG a
     let gb := (s.core (.tower u)).getG b
     let gd := (s.core (.tower u)).getS sd
     let gs := (s.core (.tower u)).getS ss
     let slot := Tab.get {} w.slots k.toNat
     (∀ j, (Tab.get {} w.slots j).fifo = []) → slot.stopped = 0 → slot.aheadStop = false →
     slot.row = 0 → slot.byte = 0 →
     Memory.wf s.mem = true → OneRow slot.shq gd ga.toNat n → spanCheck gd .write (ga.toNat, ga.toNat + n - 1) = none →
     let after := fun t : State => t.f (Reg.accWrBytesBytes T) = (s.f (Reg.accWrBytesBytes T) + n) % 2 ^ 64 ∧
       (Tab.get {} (t.tw T).slots k.toNat).fifo = [] ∧
       (bit slot.shq 24 = true → bit (t.rd (Reg.accEvt T)) k.toNat = true ∧ bit (t.rd (Reg.twrIpend T)) 3 = true)
     (let i := Instr.stFill u .whole k sd a b
      Reaches s u (6 + k.toNat) gd .write ga.toNat n fpa →
       ∃ t, Completes i u .str s t ∧ after t ∧ Stored s t (fpa % 2 ^ 45) (filled gb (gd.base + ga.toNat) n)) ∧
     (let i := Instr.stCopy u .whole k sd a ss b
      OneRow slot.shq gs gb.toNat n → spanCheck gs .read (gb.toNat, gb.toNat + n - 1) = none →
      (gd.base + ga.toNat + n ≤ gs.base + gb.toNat ∨ gs.base + gb.toNat + n ≤ gd.base + ga.toNat) →
      Reaches s u (6 + k.toNat) gd .write ga.toNat n fpa → Reaches s u (6 + k.toNat) gs .read gb.toNat n fpb →
       ∃ t, Completes i u .str s t ∧ after t ∧ Stored s t (fpa % 2 ^ 45) (memAt s fpb n) ∧
         t.f (Reg.accRdBytesBytes T) = (s.f (Reg.accRdBytesBytes T) + n) % 2 ^ 64) ∧
     ∀ (v : State) (x : QEntry), v = s.modTw T (fun w => { w with slots := Tab.set w.slots k.toNat { slot with fifo := [x] } }) →
       x.kind = .insn (.stFill u .push k sd a b) → x.check = .due → x.segs = [(sd.toNat, gd)] → x.g = [ga, gb, slot.shp, slot.shq] →
       Reaches s u (6 + k.toNat) gd .write ga.toNat n fpa →
       ∃ t, exec (.streamDescriptorComplete u k) v = .next t ∧ after t ∧ t.core (.tower u) = s.core (.tower u) ∧
         Stored s t (fpa % 2 ^ 45) (filled gb (gd.base + ga.toNat) n))

/-! Memory, the host window and translation (R349–R405, R507, R560). -/

/-- Answers to an outstanding request of the host window: a completion delivers the bytes read, or makes the write visible;
an error completion ends the issuing step as a program error; a timeout strikes it, and the abandoned write has landed or
not. An error response to a line's write-back ends its step as one or the other. -/
def Obligations.HostWindowAnswers : Prop :=
  (∀ (u : TId) (lpa : BitVec 45) (hostErr : Bool) (k : Nat) (st : StepSt) (s : State), s.stepOf u.toNat = some (k, st) →
     u.toNat ∈ st.towers → ∃ t, exec (.writebackErrorResponse u lpa hostErr) s = .next t ∧ t.mem = s.mem ∧
       (t.tw u.toNat).run ≠ .running) ∧
  ∀ (u : TId) (tag : BitVec 13) (i : Nat) (e : Track) (s : State),
    s.tracked u.toNat tag.toNat = some (i, e) → s.place e.fpa = .hostWin → s.lateWrites = [] →
    (s.core (trackCore i)).victim = none →
    let a := s.hostAddr (e.fpa % 2 ^ 45)
    let loaded := if e.write then [] else (List.range e.len).map (fun j => Tab.get 0 s.hostMem (a + j))
    let ends := fun (t : State) => t.mem = s.mem ∧ ∀ x ∈ (t.tw i).track, x.tag = tag.toNat → x.done = true
    (∃ t, exec (.requestCompletion u tag) s = .next t ∧ ends t ∧ t.steps = s.steps ∧
      (e.posted = false → e.orphan = false → { e with done := true, data := loaded } ∈ (t.tw i).track) ∧
      (e.write = false → t.hostMem = s.hostMem) ∧
      (e.write = true → Memory.wf s.hostMem = true → ∀ x, Tab.get 0 t.hostMem x =
        if a ≤ x ∧ x < a + e.data.length then e.data.getD (x - a) 0 else Tab.get 0 s.hostMem x)) ∧
    (∃ t, exec (.hostErrorCompletion u tag) s = .next t ∧ ends t ∧ t.hostMem = s.hostMem ∧ Holds t Reg.hstStatHosterr 1 ∧
      (i < 128 → e.gone = none → EndsStep i s t) ∧ (128 ≤ i ∨ e.gone ≠ none → t.steps = s.steps)) ∧
    ∃ t, exec (.hostWindowTimeout u tag) s = .next t ∧ ends t ∧ Holds t Reg.hstStatTimeout 1 ∧
      (t.hostMem = s.hostMem ∨ (e.write = true ∧ t.hostMem = (s.storeHost a e.data).hostMem)) ∧
      (i < 128 → e.gone = none → StrikesStep i s t) ∧ (128 ≤ i ∨ e.gone ≠ none → t.steps = s.steps)

/-- A controller performs a request for part of one granule of a device: four failed transfers are retried and counted; what
reads, a partial write too, counts a correction and fails on an uncorrectable granule; a device that is lost or silent, and
a fifth failed transfer, are error responses: nothing is written and the requester's step is struck. A Tower store's
home reads its words likewise, and a write mends them. Devices on their own:
one that stops answering is remembered until it answers; a retiring device's pages are copied one by one, what cannot be
read written poisoned, and after the last the device is retired; a failed drift measurement counts for its channel; a scrub
read writes a correction back and counts it, and an uncorrectable error leaves the granule bad and no step struck. -/
def Obligations.ControllersAndDevices : Prop :=
  (∀ (u : TId) (lpa : BitVec 45) (data : List Byte) (w : Bool) (ecc : EccResult) (n : BitVec 3) (d : Nat) (s : State),
     let a := lpa.toNat
     let g := a / 64
     let bs := data.take (64 - a % 64)
     s.meshRuns = true → s.lpaPlace a = .device → s.devOf a = some d → Memory.wf s.mem = true →
     let reads := w = false ∨ bs.length ≠ 64
     let bad := Tab.has s.bad g = true ∨ ecc = .uncorrectable
     ∃ t, exec (.memoryRequest u w lpa data ecc n) s = .next t ∧ t.hostMem = s.hostMem ∧
       Counts s t (Reg.memDevCrcRetry d) (min 4 n.toNat) ∧
       (s.lost a = false → s.silent a = false → n.toNat ≤ 4 → ¬ (reads ∧ bad) →
         t.towers = s.towers ∧ t.steps = s.steps ∧
         (w = false → t.mem = s.mem ∧ t.bad = s.bad) ∧
         (w = true → Stored s t a bs ∧ t.bad = if bs.length = 64 then Tab.del s.bad g else s.bad) ∧
         (reads → ecc = .corrected → Counts s t (Reg.memDevCe d) 1)) ∧
       (s.lost a = true ∨ s.silent a = true ∨ 5 ≤ n.toNat ∨ (reads ∧ bad) →
         t.mem = s.mem ∧ Counts s t Reg.memUeCntCount 1 ∧ StrikesStep u.toNat s t)) ∧
  (∀ (u : TId) (lpa : BitVec 45) (data : List Byte) (ecc : EccResult) (home : Nat) (s : State),
     let a := lpa.toNat
     let bs := data.take (64 - a % 64)
     s.meshRuns = true → s.lpaPlace a = .store home → Memory.wf s.mem = true → 0x100000000000 ≤ a →
     (∃ t, exec (.memoryRequest u true lpa data ecc 0) s = .next t ∧ Stored s t a bs ∧ t.steps = s.steps) ∧
     (ecc ≠ .uncorrectable → s.badIn a bs.length = false → ∃ t, exec (.memoryRequest u false lpa data ecc 0) s = .next t ∧
       t.mem = s.mem ∧ t.badWords = s.badWords ∧ t.steps = s.steps) ∧
     (ecc = .uncorrectable ∨ s.badIn a bs.length = true → ∃ t, exec (.memoryRequest u false lpa data ecc 0) s = .next t ∧
       t.mem = s.mem ∧ StrikesStep u.toNat s t ∧
       (s.badIn a bs.length = false → Tab.find t.badWords (a / 8) = some .uncorrectable))) ∧
  (∀ (dev : BitVec 5) (ch : BitVec 2) (quiet : Bool) (d k i : Nat) (lpa : BitVec 45) (s : State),
     (dev.toNat < 24 → Tab.sortedFrom 0 s.dev.silent = true → ∃ t, exec (.deviceNotAnswering dev quiet) s = .next t ∧
       t = { s with dev := { s.dev with silent := t.dev.silent } } ∧ Tab.has t.dev.silent dev.toNat = quiet ∧
       ∀ x, x ≠ dev.toNat → Tab.find t.dev.silent x = Tab.find s.dev.silent x) ∧
     (s.dev.moved = some d → s.dev.copied = some k → s.dev.order.findIdx? (· = d) = some i →
       let page := pageAt s.dev.order.length i k
       let lasts := s.framesUsed ≤ k + 1
       let poor := Tab.has s.dev.silent d = true ∨ ∃ g, g / 1024 = page ∧ Tab.has s.bad g = true
       ∃ t, exec .deviceMigrationPage s = .next t ∧ t.mem = s.mem ∧ t.steps = s.steps ∧ t.towers = s.towers ∧
         t.dev = { s.dev with copied := if lasts then none else some (k + 1), poor := t.dev.poor } ∧
         (t.dev.poor = true ↔ s.dev.poor = true ∨ poor) ∧
         (lasts → Holds t (Reg.memDevState d) 2 ∧ Holds t Reg.memStatMigrating 0) ∧
         ∀ g, Tab.find t.bad g = if g / 1024 = page ∧ (Tab.has s.dev.silent d = true ∨ Tab.has s.bad g = true)
           then some .poisoned else Tab.find s.bad g) ∧
     (exec (.driftTracking dev ch true) s = .next s ∧
       (dev.toNat < 24 → ∃ t, exec (.driftTracking dev ch false) s = .next t ∧ t = { s with rel := t.rel } ∧
         let key := countKey .drift (dev.toNat * 4 + ch.toNat)
         let b := bucketOf 16 s.roll.passed
         (Tab.sortedFrom 0 (Tab.get [] s.rel.counts key) = true →
           Tab.get 0 (Tab.get [] t.rel.counts key) b = Tab.get 0 (Tab.get [] s.rel.counts key) b + 1))) ∧
     (s.lpaPlace lpa.toNat = .device → s.lost lpa.toNat = false → s.silent lpa.toNat = false →
       Tab.has s.bad (lpa.toNat / 64) = false →
       exec (.scrubRead lpa .clean) s = .next s ∧
       (∀ x, s.devOf lpa.toNat = some x → ∃ t, exec (.scrubRead lpa .corrected) s = .next t ∧ t.mem = s.mem ∧ t.bad = s.bad ∧
         Counts s t (Reg.memDevCe x) 1 ∧ t.steps = s.steps) ∧
       ∃ t, exec (.scrubRead lpa .uncorrectable) s = .next t ∧ t.mem = s.mem ∧ t.steps = s.steps ∧ t.towers = s.towers ∧
         Tab.find t.bad (lpa.toNat / 64) = some .uncorrectable ∧ t.regs = s.regs) ∧
     (∀ n, s.lpaPlace lpa.toNat = .store n → Tab.has s.badWords (lpa.toNat / 8) = false →
       (∃ t, exec (.scrubRead lpa .corrected) s = .next t ∧ t = { s with rel := t.rel } ∧
         Tab.get 0 t.rel.scrubFix (lpa.toNat / 8) = Tab.get 0 s.rel.scrubFix (lpa.toNat / 8) + 1 ∧
         (2 ≤ Tab.get 0 s.rel.scrubFix (lpa.toNat / 8) → ∃ e ∈ t.rel.judged, e.1 = partTower n)) ∧
       ∃ t, exec (.scrubRead lpa .uncorrectable) s = .next t ∧ t.mem = s.mem ∧ t.towers = s.towers ∧ t.steps = s.steps ∧
         Tab.find t.badWords (lpa.toNat / 8) = some .uncorrectable))

/-- Walks: a translation held in the requester's TLB changes nothing; otherwise the miss counts and the walk from a valid
root installs its leaf, of whichever level, for the requester, and so does the walk that a parity error in a held entry leads to; an invalid root is a NO_ROOT fault of the whole space,
recorded with its requester, which waits. -/
def Obligations.TableWalks : Prop :=
  ∀ (u : TId) (req : Requester) (acc : Access) (dva : BitVec 48) (s : State), s.enginesOn u.toNat = true →
    let n := u.toNat
    let w := s.tw n
    let r := tlbOf req
    let asid := s.asidOf n
    let x := dva.toNat
    let root := s.rd (Reg.xltRoot asid)
    (∀ e ∈ Tab.get [] w.tlbs r, (Tab.get [] w.tlbs r).find? (fun e => e.hits asid x) = some e →
      leafPermits e.pte acc = true → ∀ resp, exec (.tableWalk u req acc ⟨dva, resp, false⟩) s = .next s) ∧
    (∀ l pte up, up = true ∨ ColdFor w r → bit root 0 = true → WalksTo s x 4 1 (fld root 44 12 * 4096) l pte → leafPermits pte acc = true →
      ∃ t, exec (.tableWalk u req acc ⟨dva, .ok, up⟩) s = .next t ∧ t.mem = s.mem ∧ t.hostMem = s.hostMem ∧ t.xlt = s.xlt ∧
        Holds t (Reg.xltTlbMissMiss n) (s.f (Reg.xltTlbMissMiss n) + 1) ∧ (t.tw n).core = w.core ∧
        ∃ e ∈ Tab.get [] (t.tw n).tlbs r, e.hits asid x = true ∧ e.level = l ∧ e.pte = pte) ∧
    (∀ who, (req = .core ∧ who = 0) ∨ (req = .vector ∧ who = 1) ∨ (req = .dome ∧ who = 2) ∨ (req = .tile ∧ who = 3) ∨
        (∃ k, req = .stream k ∧ who = 4 + k.toNat) →
      ColdFor w r → EnginesIdle w → bit root 0 = false → s.xlt.faults = [] → s.fqFull = false →
      ∀ resp up, ∃ t, exec (.tableWalk u req acc ⟨dva, resp, up⟩) s = .next t ∧ t.mem = s.mem ∧ waitsOnFault (t.tw n) who ∧
        (who = 1 → t.f (Reg.vecStatStopped n) = 1 ∧ t.rd (Reg.vecFaultAddr n) = dva.setWidth 64) ∧
        (who = 3 → t.f (Reg.twrTstatStopped n) = 1) ∧
        t.xlt.faults = [{
          id := none, inTable := true, held := false, kind := .noRoot, asid := asid, handle := s.handleOf n, region := 0
          addr := x, level := 0, adv := 0, access := accBit acc, towers := 2 ^ n, engines := 2 ^ min who 4
          part := false, count := 0, members := [⟨n, who⟩] }])

/-- The fault queue: enabling it needs the ring in the host window and clears both counts; the oldest record is written
there and counted, and an error response disables the queue and keeps the record; RETRY lets every member walk again and
ABORT ends every member's step, each freeing the entry; an ID of no entry is only marked stale. A prefetch request leaves a
record of its own, or counts as dropped where the queue has no room behind the records that wait for it. -/
def Obligations.FaultQueue : Prop :=
  (∀ (v : Dword) (s : State), s.fb Reg.xltCtrlFqEn = false →
    let a := s.f Reg.xltFqBaseAddr * 64
    let inside := 0x180000000000 ≤ a ∧ a + 0x40000 ≤ 0x1F0000000000
    ∃ t, exec (.xltCtrl v) s = .next t ∧ t.mem = s.mem ∧ t.xlt = s.xlt ∧ Holds t Reg.xltCtrlFqIe (b2n (bit v 0)) ∧
      Holds t Reg.xltCtrlQfullIe (b2n (bit v 1)) ∧ Holds t Reg.xltCtrlInvIe (b2n (bit v 2)) ∧
      (bit v 3 = false → Holds t Reg.xltCtrlFqEn 0) ∧
      (bit v 3 = true → inside → Holds t Reg.xltCtrlFqEn 1 ∧ Holds t Reg.xltFqProdProd 0 ∧ Holds t Reg.xltFqConsCons 0) ∧
      (bit v 3 = true → ¬ inside → Holds t Reg.xltCtrlFqEn 0 ∧ Holds t Reg.xltStatFqErr 1)) ∧
  (∀ (f : XFault) (rest : List XFault) (s : State), s.xlt.faults = f :: rest → f.id = none → f.inTable = true →
    f.kind ≠ .physHole → f.kind ≠ .prefetch → s.fqFull = false →
    let prod := s.f Reg.xltFqProdProd
    let a := s.f Reg.xltFqBaseAddr * 64 + prod % 4096 * 64
    inWindow a 64 = true → s.lateWrites = [] →
    (∃ t, exec (.faultRecordWrite .ok) s = .next t ∧ t.hostMem = (s.storeHost (s.hostAddr a) (faultRecord f prod s.now)).hostMem ∧
      Holds t Reg.xltFqProdProd (prod + 1) ∧ t.xlt.faults = { f with id := some prod } :: rest ∧ t.mem = s.mem) ∧
    ∃ t, exec (.faultRecordWrite .hostErr) s = .next t ∧ t.hostMem = s.hostMem ∧ Holds t Reg.xltCtrlFqEn 0 ∧
      Holds t Reg.xltStatFqErr 1 ∧ Holds t Reg.xltFqProdProd prod ∧ t.xlt.faults =
        { f with held := true } :: rest.map (fun f => if f.id.isNone then { f with held := true } else f)) ∧
  (∀ (id : Word) (f : XFault) (s : State),
    s.xlt.faults.find? (fun f => f.inTable && decide (f.id = some id.toNat)) = some f →
    let frees := fun (t : State) => t.xlt.faults = s.xlt.faults.filter (fun f => !(f.inTable && decide (f.id = some id.toNat)))
    (∃ t, exec (.fqResolveRetry id) s = .next t ∧ frees t ∧ t.mem = s.mem ∧ t.steps = s.steps ∧
      ∀ m ∈ f.members, (m.tower < 128 → ¬ waitsOnFault (t.tw m.tower) m.who) ∧
        (m.tower = 128 → m.who = 0 → t.keep0.wait ≠ .translation) ∧ (m.tower = 129 → m.who = 0 → t.keep1.wait ≠ .translation)) ∧
    ∃ t, exec (.fqResolveAbort id) s = .next t ∧ frees t ∧ t.mem = s.mem ∧
      ∀ m ∈ f.members, m.tower < 128 → EndsStep m.tower s t) ∧
  (∀ (id : Word) (s : State), (∀ f ∈ s.xlt.faults, ¬ (f.inTable = true ∧ f.id = some id.toNat)) →
    exec (.fqResolveRetry id) s = .next (s.setF Reg.xltStatResStale 1) ∧
    exec (.fqResolveAbort id) s = .next (s.setF Reg.xltStatResStale 1)) ∧
  ∀ (u : TId) (v : Dword) (s : State), (s.tw u.toNat).step.isSome = true →
    let room := s.fb Reg.xltCtrlFqEn = true ∧ s.fqUsed + s.unwritten.length < 4096
    (room → ∃ t f, exec (.xltPfreq u v) s = .next t ∧ t = { s with xlt := t.xlt } ∧
      t.xlt.faults = s.xlt.faults ++ [f] ∧ f.kind = .prefetch ∧ f.region = fld v 47 16 * 65536 ∧ f.count = fld v 63 48 ∧
      f.access = (if bit v 0 then 2 else 1) ∧ f.asid = s.asidOf u.toNat ∧ f.handle = s.handleOf u.toNat ∧
      f.towers = 2 ^ u.toNat ∧ f.inTable = false) ∧
    (¬ room → ∃ t, exec (.xltPfreq u v) s = .next t ∧ Counts s t (Reg.xltPfDropCount u.toNat) 1 ∧ t.xlt = s.xlt)

/-- Roots and invalidation: a root takes a table that lies wholly in device memory or the window and otherwise keeps its
value; GO is rejected while one runs or with a bad range, and otherwise takes the range as it stands; it completes when no
Tower in service has an access in scope under way, of a step that has left it neither, and then no TLB holds a translation that overlaps the range in scope,
every other one standing. -/
def Obligations.RootsAndInvalidation : Prop :=
  (∀ (n : Byte) (v : Dword) (s : State),
    (s.inDevOrWin (fld v 44 12 * 4096) 4096 = true → ∃ t, exec (.xltRootn n v) s = .next t ∧
      Holds t (Reg.xltRootTable n.toNat) (fld v 44 12) ∧ Holds t (Reg.xltRootV n.toNat) (b2n (bit v 0)) ∧
      t = { s with regs := t.regs } ∧ ∀ a, a ≠ Reg.xltRoot n.toNat → t.rd a = s.rd a) ∧
    (s.inDevOrWin (fld v 44 12 * 4096) 4096 = false → exec (.xltRootn n v) s = .next s)) ∧
  (∀ (v : Dword) (s : State), bit v 0 = true →
    let k := fld v 6 1
    let rejected := s.fb Reg.xltInvCtrlGo = true ∨ k < 16 ∨ 48 < k ∨ s.f Reg.xltInvAddrAddr * 65536 % 2 ^ k ≠ 0
    (rejected → exec (.invalidationGo v) s = .next (s.setF Reg.xltStatInvRej 1)) ∧
    (¬ rejected → ∃ t, exec (.invalidationGo v) s = .next t ∧ Holds t Reg.xltInvCtrlGo 1 ∧ Holds t Reg.xltInvCtrlLog2size k ∧
      Holds t Reg.xltInvCtrlAll (b2n (bit v 16)) ∧ Holds t Reg.xltInvCtrlAsid (fld v 15 8) ∧
      t = { s with regs := t.regs, xlt := { s.xlt with
        inv := some ⟨bit v 16, fld v 15 8, s.f Reg.xltInvAddrAddr * 65536, 2 ^ k⟩ } })) ∧
  ∀ (all : Bool) (asid base size : Nat) (s : State), s.xlt.inv = some ⟨all, asid, base, size⟩ →
    let inScope := fun n => n < 128 ∧ (s.tw n).run ≠ .retired ∧ (all = true ∨ s.asidOf n = asid)
    let hit := fun (e : TlbEntry) => (all = true ∨ e.asid = asid) ∧
      e.vpn * 2 ^ pageLog e.level < base + size ∧ base < e.vpn * 2 ^ pageLog e.level + 2 ^ pageLog e.level
    ((∃ n, n < 128 ∧ (s.tw n).run ≠ .retired ∧ ∃ e ∈ (s.tw n).track, e.done = false ∧
        (all = true ∨ e.gone.getD (s.asidOf n) = asid) ∧ e.dva < base + size ∧ base < e.dva + e.len) ∨
      (∃ n, inScope n ∧ (
        ∃ e ∈ (s.tw n).core.sbuf, ∃ p ∈ e.pieces, p.dva < base + size ∧ base < p.dva + p.len)) →
      exec .invalidationComplete s = .next s) ∧
    ((∀ n, inScope n → (s.tw n).usesRange base size = false) → (∀ n, (s.tw n).leftRange all asid base size = false) →
      (∀ n, (s.tw n).plans = []) →
      ∃ t, exec .invalidationComplete s = .next t ∧ Holds t Reg.xltInvCtrlGo 0 ∧
      Holds t Reg.xltInvDoneDone (s.f Reg.xltInvDoneDone + 1) ∧ t.mem = s.mem ∧ t.xlt = { s.xlt with inv := none } ∧
      ∀ n e, (∀ r, e ∈ Tab.get [] (t.tw n).tlbs r ↔ e ∈ Tab.get [] (s.tw n).tlbs r ∧ ¬ hit e) ∧
        (e ∈ (t.tw n).l2 ↔ e ∈ (s.tw n).l2 ∧ ¬ hit e) ∧ (e ∈ (t.tw n).l2keep ↔ e ∈ (s.tw n).l2keep ∧ ¬ hit e))

/-- A page of a MIGRATE waits while an access through its old translation is under way; then its bytes are copied to the
destination frame, granules that do not read stand poisoned there, the leaf names the new frame with M = 0, no TLB still
holds the page; after the last page the command is done, before it the next page is due. Where the last page moves, memory
elsewhere keeps its bytes. -/
def Obligations.MigratedPage : Prop :=
  (∀ (m : Migration) (f a : Nat) (pte : Dword) (s : State), s.xlt.migs = [m] → m.frames = [f] →
    let size := if m.big then 0x200000 else 0x10000
    let l := if m.big then 3 else 4
    m.dva % size = 0 → f % size = 0 → a % 8 = 0 → s.keepLeaf m.asid m.dva = some (a, l, pte) →
    let old := leafFpa l pte m.dva % 2 ^ 45
    let device := fun (x n : Nat) => x + n ≤ s.f Reg.memSizeSize ∧ x + n ≤ 0x100000000000
    let answers := fun (x n : Nat) => ∀ y, x ≤ y → y < x + n → s.lost y = false ∧ s.silent y = false
    leafFpa l pte m.dva / 2 ^ 45 = s.self → device old size → device f size → device a 8 →
    answers f size → answers a 8 → Tab.has s.bad (a / 64) = false →
    (old + size ≤ f ∨ f + size ≤ old) → (a + 8 ≤ f ∨ f + size ≤ a) →
    Memory.wf s.mem = true → Tab.sortedFrom 0 s.bad = true → s.invWaits false m.asid m.dva size = false →
    (∀ n, (s.tw n).plans = []) →
    let new := setFld (setBit pte 6 false) 56 16 ((s.self * 2 ^ 45 + f) / 65536)
    ∃ t, exec .migratePage s = .next t ∧ t.xlt.migs = [] ∧ t.hostMem = s.hostMem ∧ t.steps = s.steps ∧
      (∀ x < size, s.unreadable (old + x / 64 * 64) 64 = false → Tab.get 0 t.mem (f + x) = Tab.get 0 s.mem (old + x)) ∧
      (∀ g < size / 64, s.unreadable (old + 64 * g) 64 = true → Tab.find t.bad (f / 64 + g) = some .poisoned) ∧
      (∀ j < 8, Tab.get 0 t.mem (a + j) = new.extractLsb' (8 * j) 8) ∧
      (∀ x, ¬ (f ≤ x ∧ x < f + size) → ¬ (a ≤ x ∧ x < a + 8) → Tab.get 0 t.mem x = Tab.get 0 s.mem x) ∧
      ∀ n r, ∀ e ∈ Tab.get [] (t.tw n).tlbs r, e.asid = m.asid →
        ¬ (e.vpn * 2 ^ pageLog e.level < m.dva + size ∧ m.dva < e.vpn * 2 ^ pageLog e.level + 2 ^ pageLog e.level)) ∧
  ∀ (m : Migration) (f : Nat) (fs : List Nat) (rest : List Migration) (s : State), s.xlt.migs = m :: rest →
    m.frames = f :: fs → let size := if m.big then 0x200000 else 0x10000
    (s.invWaits false m.asid m.dva size = true → exec .migratePage s = .next s) ∧
    (s.invWaits false m.asid m.dva size = false → fs ≠ [] → ∃ t, exec .migratePage s = .next t ∧ t.steps = s.steps ∧
      t.xlt.migs = { m with dva := m.dva + size, frames := fs } :: rest)

/-! The fabric (R407–R440). -/

/-- States of a port: training ends ACTIVE, DEGRADED or DOWN by its faulty lanes where the partner is the one its place
names, and MISWIRED otherwise; an ABSENT port tries again, and a port nobody answers is ABSENT; a retraining, an ACK that
does not come and a high error rate stop traffic and count; a retraining that ends resends every frame; ten failed attempts
are judged permanent; the driver retires a port. No other port changes state. A dead port's packets: with its partner's
HANDOVER word those that it had not accepted go first on the sibling that hands them over, and what it held back meanwhile
behind them, here while the sibling's replay buffer is full so that none leaves at once; with no sibling those not accepted are lost, and a
collective whose message was among them breaks, as does, where the partner has lost power, every one of its groups in
progress. Packets accepted stay. -/
def Obligations.PortsAndDeadPorts : Prop :=
  (∀ (p : BitVec 5) (bad : Byte) (s : State), p.toNat < 18 → s.meshRuns = true →
     let n := p.toNat
     let st := s.portState n
     let lanes := s.f (Reg.gwlPortBadlanes n) ||| bad.toNat
     let keeps := fun (t : State) => t.mem = s.mem ∧ t.towers = s.towers ∧ ∀ q < 18, q ≠ n → t.portState q = s.portState q
     let goes := fun (i : Instr) (st' : Nat) (more : State → Prop) =>
       ∃ t, exec i s = .next t ∧ keeps t ∧ t.portState n = st' ∧ more t
     (∀ (m : BitVec 12) (q : BitVec 5), st ∉ [2, 3, 5, 7] →
       let right := m.toNat = s.neighbour s.self (n % 6) ∧ q.toNat = 6 * (n / 6) + (n % 6 + 3) % 6
       (right → s.handing n = false → goes (.portTrainingComplete p m q bad) (laneState lanes) (fun t =>
         Holds t (Reg.gwlPortBadlanes n) lanes ∧ Holds t (Reg.gwlPortPartner n) m.toNat ∧
         Holds t (Reg.gwlPortPport n) q.toNat ∧ (t.port n).old = (s.port n).old ++ (s.port n).rx)) ∧
       (¬ right → s.handing n = false → goes (.portTrainingComplete p m q bad) 6 (fun t => Holds t Reg.gwlStatMiswire 1)) ∧
       (s.handing n = true → exec (.portTrainingComplete p m q bad) s = .next s)) ∧
     (st = 0 → goes (.absentRetry p) 1 (fun t => Holds t Reg.gwlStatPortChg 1)) ∧
     (st = 1 → goes (.portAbsent p) 0 (fun t => Holds t Reg.gwlStatPortChg 1)) ∧
     (∀ corr, st ∈ [1, 2, 3] → goes (.portRetrain p ⟨bad, corr⟩) (if laneState lanes = 4 then 4 else 1) (fun t =>
       Holds t (Reg.gwlPortBadlanes n) lanes ∧ Counts s t (Reg.gwlPcntRetrains n) (if st = 1 then 0 else 1))) ∧
     ((s.port n).replay ≠ [] → st ∈ [2, 3] → goes (.ackTimeout p) 1 (fun t => Counts s t (Reg.gwlPcntRetrains n) 1)) ∧
     ((s.port n).replay = [] → exec (.ackTimeout p) s = .next s) ∧
     (∀ k, goes (.errorRateCheck p k)
       (if k < (s.port n).badFrames * 1000000 ∧ (s.port n).rateHold = false ∧ st ∈ [2, 3] then 1 else st)
       (fun t => (t.port n).badFrames = 0)) ∧
     (st = 1 → goes (.retrainComplete p) (laneState (s.f (Reg.gwlPortBadlanes n))) (fun t =>
       laneState (s.f (Reg.gwlPortBadlanes n)) ≠ 4 → (t.port n).nak = false ∧
         Counts s t (Reg.gwlPcntReplays n) (s.port n).replay.length)) ∧
     (st = 4 → goes (.downRetry p) 4 (fun t => (t.port n).downTries = (s.port n).downTries + 1 ∧
       (9 ≤ (s.port n).downTries → ∃ e ∈ t.rel.judged, e.1 = partPort n))) ∧
     (st ≠ 5 → goes (.gwlPortRetire p) 5 (fun t => FlashRec.retire (partPort n) 0 ∈ t.flashq.recs))) ∧
  (∀ (p : BitVec 5) (acc : BitVec 12) (s : State), p.toNat < 18 → s.meshRuns = true →
     let n := p.toNat
     (∀ q, s.portState n ∈ [4, 5] → (range 0 18).find? (fun q => (s.port q).hand.any (fun h => decide (h.1 = n))) = some q →
       q ≠ n → 1024 ≤ (s.port q).replay.length →
       let behind := fun (f : SentFrame) => 0 < (f.seq + 4096 - acc.toNat) % 4096 ∧ (f.seq + 4096 - acc.toNat) % 4096 < 2048
       let rest := (s.port q).hand.filter (fun h => decide (h.1 ≠ n))
       ∃ t, exec (.portDownHandover p acc) s = .next t ∧ (t.port n).replay = [] ∧ (t.port n).txq = [] ∧
         (t.port n).held = [] ∧ (t.port q).hand = rest ∧ t.mem = s.mem ∧ (t.port q).txq =
           (((s.port n).replay.filter behind).flatMap (fun f => if f.kind = 0 then packetsOf f.start f.slots else []))
             ++ (s.port n).txq ++ (s.port n).held ++ (s.port q).txq ++ (if rest = [] then (s.port q).held else [])) ∧
     ((∀ q < 18, ∀ h ∈ (s.port q).hand, h.1 ≠ n) → exec (.portDownHandover p acc) s = .next s) ∧
     (∀ power, s.portState n ∈ [1, 2, 3, 4] → ∃ t, exec (.portLossNoSibling ⟨p, power⟩) s = .next t ∧ t.portState n = 4 ∧
       t.mem = s.mem ∧ (t.port n).replay = [] ∧ (t.port n).txq = [] ∧ (t.port n).rx = (s.port n).rx ∧
       (∀ k ∈ (s.port n).unsent, k.type ∈ [8, 9] → (t.coll (k.arg.toNat / 256)).fault = true) ∧
       ∀ e ∈ s.colls, power = true → e.2.bound = true → e.2.inProgress = true →
         s.inBox e.2 (s.neighbour s.self (n % 6)) = true → (t.coll e.1).fault = true))

/-- A frame on a port that carries traffic: a failed one counts and asks for a resend, at once where it is the first; an idle
one only acknowledges; a data
frame in sequence gives its packets and one out of sequence asks for a resend; frames acknowledged leave the replay buffer.
-/
def Obligations.LinkFrames : Prop :=
  ∀ (p : BitVec 5) (f : Frame) (s : State), p.toNat < 18 → s.meshRuns = true → s.portUp p.toNat = true →
    let n := p.toNat
    let x := s.port n
    let good := f.fecOk = true ∧ crc32 (frameBytes f) = f.crc.toNat
    let kind := fld f.head 38 36
    let seq := fld f.head 63 52
    (¬ good → ∃ t, exec (.linkFrame p f) s = .next t ∧ Counts s t (Reg.gwlPcntCrcErr n) 1 ∧ t.mem = s.mem ∧
      (t.port n).nak = true ∧ (t.port n).badFrames = x.badFrames + 1 ∧ (t.port n).rx = x.rx ∧ (t.port n).rxSeq = x.rxSeq ∧
      (t.port n).txq = x.txq ∧ (∀ q, q ≠ n → t.port q = s.port q) ∧
      (x.nak = false → x.handDue = false → (∀ vc < 8, Tab.get 0 x.freed vc = Tab.get 0 x.told vc) → t.out.link = s.out.link ++ [(n, (t.port n).wire 0 1 0 [])])) ∧
    (good → bit f.head 39 = false → ∃ t, exec (.linkFrame p f) s = .next t ∧ t.mem = s.mem ∧
      (∀ i, x.replay.findIdx? (fun r => decide (r.seq = fld f.head 51 40)) = some i →
        x.replay.drop (i + 1) <+: (t.port n).replay) ∧
      (kind = 1 → (t.port n).rx = x.rx ∧ (t.port n).rxSeq = x.rxSeq) ∧
      (kind ≠ 1 → seq ≠ (x.rxSeq + 1) % 4096 → (t.port n).nak = true ∧ (t.port n).rx = x.rx ∧ (t.port n).rxSeq = x.rxSeq) ∧
      (kind = 0 → seq = (x.rxSeq + 1) % 4096 → (t.port n).nak = false ∧ (t.port n).rxSeq = seq ∧
        (t.port n).rx = x.rx ++ packetsOf (fld f.head 35 21) f.slots)) ∧
    (good → bit f.head 39 = true → (x.replay.findIdx? (fun r => decide (r.seq = fld f.head 51 40)) = none) →
      ∃ t, exec (.linkFrame p f) s = .next t ∧ Counts s t (Reg.gwlPcntReplays n) x.replay.length)

/-- The router with a packet of this module's own: one for this module is delivered here; another takes a usable port in the
direction of its dimension, and with that direction unusable goes the other way round once, pinned; without detours it is
counted unreachable, a request answered with ERROR 3; a reserved type is discarded and counted. A packet that a port
received frees the slots it held, and one accepted before the link trained anew goes on and frees none. -/
def Obligations.PacketsRouted : Prop :=
  ∀ (dir : BitVec 3) (pk : Packet) (s : State), s.meshRuns = true →
    let request := pk.type ∈ ([1, 2] : List (BitVec 4))
    let response := pk.type ∈ ([3, 4, 5, 6] : List (BitVec 4))
    let joins := fun (t : State) (d : Nat) (k : Packet) => ∃ q ∈ s.usable d,
      (t.port q).txq = (s.port q).txq ++ [{ k with vc := BitVec.ofNat 3 (s.hopVc k dir.toNat d) }] ∧
      ∀ r, r ≠ q → t.port r = s.port r
    let full := ∀ q < 18, 1024 ≤ (s.port q).replay.length ∧ (s.port q).hand = []
    let away := fun (d : Nat) => s.routeDim pk.dest.toNat = some d
    (6 ≤ dir.toNat → request ∨ response →
      (s.routeDim pk.dest.toNat = none → ∃ t, exec (.packetRoute dir pk) s = .next t ∧
        t = { s with outbox := t.outbox, inbox := s.inbox ++ [pk] } ∧ t.outbox = removeOne pk s.outbox) ∧
      (∀ d, away d → full →
        let o := s.dirTo pk.dest.toNat d
        let back := (o + 3) % 6
        (s.usable o ≠ [] → ∃ t, exec (.packetRoute dir pk) s = .next t ∧ t.outbox = removeOne pk s.outbox ∧ t.mem = s.mem ∧
          joins t o { pk with pin := false }) ∧
        (s.usable o = [] → s.usable back ≠ [] → s.fb Reg.gwlCtrlDetourEn = true → pk.detour.toNat < 3 →
          ∃ t, exec (.packetRoute dir pk) s = .next t ∧ joins t back { pk with pin := true, detour := pk.detour + 1 }) ∧
        (s.usable o = [] → s.fb Reg.gwlCtrlDetourEn = false → ∃ t, exec (.packetRoute dir pk) s = .next t ∧
          Counts s t Reg.gwlUnreachCntCount 1 ∧ t.ports = s.ports ∧
          (response → t.outbox = removeOne pk s.outbox) ∧
          (request → ∃ r, t.outbox = removeOne pk s.outbox ++ [r] ∧ r.type = 6 ∧ r.arg = 3 ∧ r.dest = pk.src ∧
            r.tower = pk.tower ∧ r.tag = pk.tag)))) ∧
    (6 ≤ dir.toNat → ¬ request → ¬ response → pk.type ∉ ([8, 9, 10] : List (BitVec 4)) →
      ∃ t, exec (.packetRoute dir pk) s = .next t ∧ Counts s t Reg.gwlUnreachCntCount 1 ∧ t.inbox = s.inbox ∧
        t.ports = s.ports) ∧
    (∀ q, dir.toNat < 6 → [dir.toNat, dir.toNat + 6, dir.toNat + 12].find? (fun r => (s.port r).rx.contains pk) = some q →
      request → s.routeDim pk.dest.toNat = none → ∃ t, exec (.packetRoute dir pk) s = .next t ∧ t.inbox = s.inbox ++ [pk] ∧
        (t.port q).rx = removeOne pk (s.port q).rx ∧ Tab.get 0 (t.port q).freed pk.vc.toNat =
          (Tab.get 0 (s.port q).freed pk.vc.toNat + 1 + min 4 ((pk.data.length + 15) / 16)) % 65536) ∧
    (∀ q, dir.toNat < 6 → (∀ r ∈ [dir.toNat, dir.toNat + 6, dir.toNat + 12], pk ∉ (s.port r).rx) →
      [dir.toNat, dir.toNat + 6, dir.toNat + 12].find? (fun r => (s.port r).old.contains pk) = some q →
      request → s.routeDim pk.dest.toNat = none → ∃ t, exec (.packetRoute dir pk) s = .next t ∧ t.inbox = s.inbox ++ [pk] ∧
        t.port q = { s.port q with old := removeOne pk (s.port q).old })

/-- Transactions at their home: a READ of memory that answers sends the granule's 64 bytes, a WRITE stores its bytes and is
accepted, an unreadable granule is an ERROR, and any other place is REFUSED and counted. Answers to a remote request: DATA
and ACCEPT answer its entry of the tracker; REFUSED is a physical-hole fault at its FPA that ends the step; ERROR of a part
that fails while the request waits is one that says so; any other ERROR, and no answer in time, which counts, strike the
step. An answer that comes after the timeout is discarded. -/
def Obligations.RemoteTransactions : Prop :=
  (∀ (pk : Packet) (s : State), s.meshRuns = true →
     let g := pk.lpa.toNat / 64 * 64
     let a := g + pk.off.toNat
     let n := min (pk.len.toNat + 1) (64 - pk.off.toNat)
     let memory := fun (x : Nat) => s.lpaPlace x = .device ∨ ∃ u, s.lpaPlace x = .store u
     let replies := fun (t : State) (type : BitVec 4) (code : BitVec 17) (data : List Byte) => t.inbox = removeOne pk s.inbox ∧
       t.outbox = s.outbox ++ [{ pk with
         type := type, vc := 2, detour := 0, pin := false, dest := pk.src, src := BitVec.ofNat 12 s.self
         arg := code, data := data }]
     (memory g → s.unreadable g 64 = false → ∃ t, exec (.read pk) s = .next t ∧ t.mem = s.mem ∧ replies t 3 0 (memAt s g 64)) ∧
     (memory g → s.unreadable g 64 = true → ∃ t, exec (.read pk) s = .next t ∧ t.mem = s.mem ∧
       replies t 6 (if g < 0x100000000000 ∧ s.lost g = true then 2 else 1) []) ∧
     (memory a → (s.lpaPlace a = .device → s.lost a = false ∧ s.silent a = false ∧ Tab.has s.bad (a / 64) = false) →
       Memory.wf s.mem = true → ∃ t, exec (.write pk) s = .next t ∧ replies t 4 0 [] ∧
       Stored s t a ((pk.data.drop (pk.off.toNat % 16) ++ List.replicate n 0).take n)) ∧
     (¬ memory g → ∃ t, exec (.read pk) s = .next t ∧ t.mem = s.mem ∧ replies t 5 0 [] ∧ Counts s t Reg.gwlRefusedCntCount 1) ∧
     (¬ memory a → ∃ t, exec (.write pk) s = .next t ∧ t.mem = s.mem ∧ replies t 5 0 [] ∧
       Counts s t Reg.gwlRefusedCntCount 1)) ∧
  (∀ (pk : Packet) (s : State), s.meshRuns = true → s.tracked pk.tower.toNat pk.tag.toNat = none →
     ∀ i ∈ [Instr.data pk, .accept pk, .refused pk, .error pk], ∃ t, exec i s = .next t ∧ t.mem = s.mem ∧ t.steps = s.steps ∧
       t.inbox = removeOne pk s.inbox ∧ t.xlt = s.xlt ∧
       ∀ j, (t.tw j).track = (s.tw j).track ∧ (j ∈ trackersOf pk.tower.toNat → pk.tag.toNat ∉ (t.tw j).late)) ∧
  (∀ (pk : Packet) (i : Nat) (e : Track) (s : State), s.meshRuns = true → (s.core (trackCore i)).victim = none →
     s.tracked pk.tower.toNat pk.tag.toNat = some (i, e) → (∃ m, s.place e.fpa = .remote m) →
     let ends := fun (t : State) => t.mem = s.mem ∧ ∀ x ∈ (t.tw i).track, x.tag = pk.tag.toNat → x.done = true
     (e.write = false → e.posted = false → e.orphan = false → ∃ t, exec (.data pk) s = .next t ∧ ends t ∧ t.inbox = removeOne pk s.inbox ∧
       { e with done := true, data := ((pk.data.drop (e.fpa % 64)) ++ List.replicate e.len 0).take e.len } ∈ (t.tw i).track) ∧
     (e.write = true → ∃ t, exec (.accept pk) s = .next t ∧ ends t ∧ t.inbox = removeOne pk s.inbox ∧
       (e.posted = false → e.orphan = false → { e with done := true, data := [] } ∈ (t.tw i).track)) ∧
     (i < 128 → e.gone = none → ∃ t f, exec (.refused pk) s = .next t ∧ ends t ∧ EndsStep i s t ∧
       t.xlt.faults = s.xlt.faults ++ [f] ∧ f.kind = .physHole ∧ f.addr = e.fpa ∧ f.part = false) ∧
     (i < 128 → e.gone = none → pk.arg.toNat % 256 ≠ 4 → ∃ t, exec (.error pk) s = .next t ∧ ends t ∧ StrikesStep i s t) ∧
     (i < 128 → e.gone = none → pk.arg.toNat % 256 = 4 → ∃ t f, exec (.error pk) s = .next t ∧ ends t ∧
       t.xlt.faults = s.xlt.faults ++ [f] ∧ f.kind = .physHole ∧ f.addr = e.fpa ∧ f.part = true) ∧
     (∃ t, exec (.remoteTimeout pk.tower pk.tag) s = .next t ∧ ends t ∧ Counts s t Reg.gwlTimeoutCntCount 1 ∧
       pk.tag.toNat ∈ (t.tw i).late ∧ (i < 128 → e.gone = none → StrikesStep i s t) ∧ (e.gone ≠ none → t.steps = s.steps)))

/-- A Tower arrives in a slot by `bset` on its phase bit; the last one gives the module its arrival stamp. An arrival on an
unbound slot, of another channel, or of a Tower already there is a bit fault. -/
def Obligations.CollectiveArrivals : Prop :=
  ∀ (u : TId) (a : GReg) (off : BitVec 13) (n k : Nat) (st : StepSt) (s : State), let c := CoreId.tower u
    s.issuing c = true → (((s.core c).getG a + off.setWidth 64).toNat = 0x30000 + n) → n < 0x200 →
    s.stepOf u.toNat = some (k, st) → Quiet c s → AllClean (s.core c) → ∀ up : Upset, up ≠ .regs →
    let x := s.coll n
    let joins := x.bound = true ∧ k / 65536 = x.chan % 65536 ∧ x.up = false ∧ (∀ e ∈ x.arrived, e.tower ≠ u.toNat) ∧
      x.arrived.length < x.localN
    let all := x.arrived ++ [⟨u.toNat, (s.tw u.toNat).rank, k⟩]
    (joins → all.length < x.localN → ∃ t, exec (.bset ⟨c, up⟩ a off) s = .next t ∧ t.coll n = { x with arrived := all } ∧
      t.core c = passed (s.core c) ∧ t.mem = s.mem ∧ ∀ m, m ≠ n → t.coll m = s.coll m) ∧
    (joins → all.length = x.localN → x.op = 0 → x.fault = false →
      (∃ m ∈ s.collKids x, m.1 ∉ x.got) → ∃ t, exec (.bset ⟨c, up⟩ a off) s = .next t ∧ t.core c = passed (s.core c) ∧
      t.coll n = { x with
        arrived := all, up := true, stamp := ⟨s.now, s.f Reg.rollPhasePhase, s.roll.fine, s.self⟩
        best := (t.coll n).best } ∧
      ((t.coll n).best = x.best ∨ (t.coll n).best = (t.coll n).stamp)) ∧
    (joins → all.length = x.localN → x.op = 0 → x.fault = false → x.sentUp = false → s.collParent x = none →
      (∀ m ∈ s.collKids x, m.1 ∈ x.got) → (x.ext % 4096 = 0 ∨ s.fb Reg.rollStatAligned = true) →
      ∃ t, exec (.bset ⟨c, up⟩ a off) s = .next t ∧ t.core c = passed (s.core c) ∧ t.mem = s.mem ∧
      (t.coll n).gen = (x.gen + 1) % 2 ^ 32 ∧ (t.coll n).phase = !x.phase ∧ (t.coll n).err = x.broken ∧
      (t.coll n).arrived = [] ∧ (t.coll n).up = false) ∧
    (¬ joins → CanTrap c s → ∃ t, exec (.bset ⟨c, up⟩ a off) s = .next t ∧
      Enters c s t 0 0 4 (BitVec.ofNat 64 (0x30000 + n)) (s.core c).pc)

/-- Collective messages: an upward one waits for the binding, or is combined while the module itself has not arrived, and
breaks the generation where group, binding or sender are wrong; a second one of the same neighbour does nothing; a downward one
releases the member that waits for it, whose slot then stands at the next generation with its phase bit flipped and its
result at DST, with its error bit set where the message or its binding says so, and does nothing where none waits; a notice of
a fault elsewhere (the model's means, log entry 70) marks a generation in progress; a held upward message goes once the module is aligned. Each member counts
its own generations (the model's reading, log entry 55). -/
def Obligations.CollectiveMessages : Prop :=
  ∀ (m : CollMsg) (s : State), s.meshRuns = true →
    let n := m.slot.toNat
    let c := s.coll n
    let stamp : Stamp := ⟨m.stampRoll.toNat, m.stampPhase.toNat, m.stampFine.toNat, m.stampModule.toNat⟩
    let only := fun (t : State) (c' : CollSlot) => t = { s with colls := t.colls } ∧ t.coll n = c' ∧
      ∀ j, j ≠ n → t.coll j = s.coll j
    (m.fault = false → c.bound = false → ∃ t, exec (.collUp m) s = .next t ∧ only t { c with early := c.early ++ [m] }) ∧
    (m.fault = false → c.bound = true → c.up = false → m.fromModule.toNat ∉ c.got → c.fault = false →
      let from' := { c with got := c.got ++ [m.fromModule.toNat], best := c.best.later stamp }
      let sound := m.broken = false ∧ m.groupId.toNat = c.groupId ∧ m.bind = c.binding ∧ ∃ k ∈ s.collKids c, k.1 = m.fromModule.toNat
      (sound → ∃ t, exec (.collUp m) s = .next t ∧ only t (from'.merge m.block)) ∧
      (¬ sound → ∃ t, exec (.collUp m) s = .next t ∧ only t { from' with broken := true })) ∧
    (m.fault = false → c.bound = true → m.fromModule.toNat ∈ c.got ∨ c.fault = true → exec (.collUp m) s = .next s) ∧
    (m.fault = true → c.bound = false → exec (.collUp m) s = .next s ∧ exec (.collDown m) s = .next s) ∧
    (m.fault = true → c.bound = true → c.fault = false → m.groupId.toNat = c.groupId →
      (∃ h ∈ s.collTies c, h.1 = m.fromModule.toNat) → c.inProgress = true → s.collLive c = true →
      ∀ i ∈ [Instr.collUp m, .collDown m], ∃ t, exec i s = .next t ∧
        only t { c with fault := true, told := if m.broken then c.told ++ [m.fromModule.toNat] else c.told }) ∧
    (m.fault = false → c.sentUp = false → exec (.collDown m) s = .next s) ∧
    (m.fault = false → c.bound = true → c.sentUp = true → c.fault = false → c.op = 0 →
      m.broken = true ∨ m.groupId.toNat ≠ c.groupId ∨ m.bind ≠ c.binding ∨ m.block ≠ [] →
      ∃ t, exec (.collDown m) s = .next t ∧ (t.coll n).gen = (c.gen + 1) % 2 ^ 32 ∧ (t.coll n).phase = !c.phase ∧
        (t.coll n).err = true ∧ t.mem = s.mem ∧ t.steps = s.steps) ∧
    (m.fault = false → c.bound = true → c.sentUp = true → c.fault = false → m.broken = false → m.bind = c.binding →
      c.takes m.block = true → m.groupId.toNat = c.groupId → (s.collParent c).map (·.1) = some m.fromModule.toNat →
      Memory.wf s.mem = true → c.dst + m.block.length ≤ s.f Reg.memSizeSize →
      c.dst + m.block.length ≤ 0x100000000000 → (∀ y < m.block.length, s.lost (c.dst + y) = false ∧
        s.silent (c.dst + y) = false ∧ Tab.has s.bad ((c.dst + y) / 64) = false) → Tab.sortedFrom 0 s.bad = true →
      ∃ t, exec (.collDown m) s = .next t ∧ (t.coll n).gen = (c.gen + 1) % 2 ^ 32 ∧ (t.coll n).phase = !c.phase ∧
        (t.coll n).err = false ∧ (t.coll n).arrived = [] ∧ (t.coll n).up = false ∧ (t.coll n).sentUp = false ∧
        t.towers = s.towers ∧ t.steps = s.steps ∧ (c.op = 0 → t.mem = s.mem) ∧ (c.op ≠ 0 → Stored s t c.dst m.block)) ∧
    (∀ hop, c.held = true → s.fb Reg.rollStatAligned = true → c.bound = true → c.up = true → c.sentUp = false →
      c.fault = false → c.ext % 4096 ≠ 0 → (∀ k ∈ s.collKids c, k.1 ∈ c.got) → s.collParent c = some hop →
      s.usable hop.2 ≠ [] → ∃ t o, exec (.heldUpwardRelease m.slot) s = .next t ∧ t.mem = s.mem ∧
        t.coll n = { c with held := false, sentUp := true } ∧ t.collOut = s.collOut ++ [o] ∧ o.dest = hop.1 ∧ o.down = false ∧
        o.msg.gen.toNat = c.gen % 2 ^ 32 ∧ o.msg.slot = m.slot ∧ o.msg.block = (if c.broken then [] else c.block))

/-! Rolls and steps (R38–R69, R301, R455–R476). -/

/-- The boundary: the next roll takes the number adopted, or the one after the roll that ends, and its phase counts from 0
at 1,024 rc. With the Keeps stopped nothing else of the module's work changes but the energy counted with power on; with decisions late,
OVERRUN counts and no decision is taken; on a module without work the sensors are read, the report of the roll that ended is kept and
due, every region stands at OP0, and no Tower is touched. Packets that came by their own rows in the roll are taken, at most 256,
and a waiting SMBus packet before them (R445, R448). On a module with one step: a step whose Towers have all executed `done` posts (R56), and
one that is struck, past its budget or in a program error ends with its status, or is executed again (R57, R58, R59, R468, R564); one
that waits is placed on free Towers, and one that failed a check is posted (R462, R464, R465). Of two steps, the one of lower
priority gives its Towers to a waiting one, which reserves them (R61, R470, R471). At the cap floor a step's Towers are held in the
rolls of its pattern that are not active, and such a roll uses no budget (R57, R486, R487). -/
def Obligations.RollBoundary : Prop :=
  ∀ (env : Sample) (s : State),
    let now := s.roll.adopt.getD (s.now + 1)
    let moves := fun (t : State) => exec (.rollBoundary env) s = .next t ∧
      Holds t Reg.rollCountCount now ∧ Holds t Reg.rollPhasePhase 0 ∧ t.roll.len = 1024 ∧ t.roll.adopt = none
    let goes := fun (t : State) => moves t ∧ t.mem = s.mem ∧ (s.lateWrites = [] → t.hostMem = s.hostMem) ∧ t.towers = s.towers
    let ringOff := s.fb Reg.keepAdmCtrlEn = false
    (s.keepsAct = false → ∃ t, goes t ∧ t.chans = s.chans ∧ t.roll.barrier = none ∧ t.steps = s.steps ∧
      Holds t Reg.pwrEnergyUj (s.f Reg.pwrEnergyUj + if s.boot.power = true then env.energy.toNat else 0)) ∧
    (s.keepsAct = true → QuietModule s → ringOff → env.late = true → ∃ t, goes t ∧ Holds t Reg.rollStatOverrun 1 ∧
      t.roll.overruns = s.roll.overruns + 1 ∧ t.roll.due = some (s.report env 0)) ∧
    (s.keepsAct = true → QuietModule s → ringOff → TimelyDecisions env → ∃ t, goes t ∧ t.roll.overruns = 0 ∧
      t.roll.due = some (s.report env 0) ∧ t.roll.reports.head? = some (s.now, s.report env 0) ∧ t.steps = [] ∧
      (∀ r < 32, Holds t (Reg.pwrRegionTemp r) ((env.temps[r]?).getD 0).toNat ∧ Holds t (Reg.pwrRegionOp r) 0) ∧
      Holds t Reg.pwrCoolantInlet env.inlet.toNat ∧ Holds t Reg.pwrCoolantOutlet env.outlet.toNat ∧
      t.pwr.phy = env.phy ∧ t.pwr.hostPower = env.hostPower.toNat ∧
      (s.roll.passed + 1 < s.rel.teleFrom + 64 → t.rel.teleDone = s.rel.teleDone) ∧
      (s.rel.teleFrom + 64 ≤ s.roll.passed + 1 → t.rel.teleFrom = s.roll.passed + 1 ∧ t.rel.teleEnergy = 0 ∧ ∃ d,
        t.rel.teleDone = s.rel.teleDone ++ [d] ∧ d.take 4 = leBytes 4 (min (s.rel.teleEnergy + env.energy.toNat) (2 ^ 32 - 1))) ∧
      Holds t Reg.pwrEnergyUj (s.f Reg.pwrEnergyUj + env.energy.toNat)) ∧
    (s.keepsAct = true → s.ready = true → s.boot.responder = false → QuietModule { s with adm := { s.adm with rows := [] }, smb := {} } →
      TimelyDecisions env → s.roll.left = 0 →
      let rc := s.roll.rc + s.roll.len
      (∀ l : List (Nat × Nat × Wennum), s.adm.rows = l → s.smb.pending = none → s.fb Reg.keepAdmCtrlEn = true →
        (∀ e ∈ l, e.1 ≤ rc ∧ e.2.1 ∈ [0x01, 0x20, 0x30] ∧ ¬ FinePacket e.2.2) → ∃ t rs, goes t ∧ t.adm.rows = l.drop 256 ∧
        t.adm.taken = s.adm.taken + min 256 l.length ∧ t.adm.replies = s.adm.replies ++ rs ∧
        rs.map (·.bytes) = (l.take 256).map (fun e => replyOf e.2.1 e.2.2 t 0x102 e.2.2.handle.toNat [])) ∧
      (∀ (due : Nat) (w : Wennum), s.adm.rows = [(due, 0x20, w)] → s.smb.pending = none → s.fb Reg.keepAdmCtrlEn = true → FinePacket w →
        let cap := par w 0x10 2
        (rc < due → ∃ t, goes t ∧ t.adm.rows = s.adm.rows ∧ t.adm.taken = s.adm.taken) ∧
        (due ≤ rc → par w 0x12 30 = 0 → 600 ≤ cap → cap ≤ 1800 → ∃ t r, goes t ∧ t.adm.rows = [] ∧ t.adm.taken = s.adm.taken + 1 ∧
          Holds t Reg.pwrCapDrv cap ∧ Holds t Reg.pwrCapInForce (min (s.f Reg.pwrCapSmb) cap) ∧ t.adm.replies = s.adm.replies ++ [r] ∧
          r.bytes = replyOf 0x20 w t 0 w.handle.toNat (leBytes 2 (min (s.f Reg.pwrCapSmb) cap)))) ∧
      (∀ (op : Half) (w : Wennum), s.smb.pending = some (op, w) → s.smb.pendDue ≤ rc → s.adm.rows = [] → ringOff →
        op.toNat ∈ [0x01, 0x20, 0x30] → ¬ FinePacket w → ∃ t, goes t ∧ t.smb.pending = none ∧ t.smb.lastSeq = some w.seq ∧
        t.smb.reply = replyOf op.toNat w t 0x102 w.handle.toNat [])) ∧
    (StepBoundary env s → ringOff → ∀ (k : Nat) (st : StepSt), k < 2 ^ 30 → s.steps = [(k, st)] → Tab.has s.chans (k / 65536) = true →
      (s.chan (k / 65536)).state ≠ 3 → (∀ e ∈ s.roll.occ, e.2 = k) → (∀ u < 128, (s.tw u).step ≠ none → u ∈ st.towers) →
      (∀ u ∈ st.towers, u < 128 ∧ (s.tw u).step = some k ∧ (s.tw u).run ∈ [.running, .done, .stopped]) →
      let ends := fun (status : Nat) => ∃ t, moves t ∧ EndsAtBoundary env s t k st status
      let placed := fun (reexec : Nat) => ∃ t, moves t ∧ t.mem = s.mem ∧ PlacedAtBoundary t k st reexec
      let rc := s.roll.rc + s.roll.len
      let used := if s.stepHeld st = true then st.used else min 255 (st.used + 1)
      let resident := st.phase = .resident ∧ st.towers ≠ [] ∧ st.reserved = [] ∧ st.fail = 0
      let runs := ∃ u ∈ st.towers, (s.tw u).run ≠ .done
      let fits := (∀ u < 128, (s.tw u).run = .free ∨ u ∈ st.towers) ∧ st.need ≤ 128 ∧
        (st.place = true → st.named.length = st.need)
      (resident → (∀ u ∈ st.towers, (s.tw u).run = .done) → ends 0) ∧
      (resident → runs → st.struck = false → st.progErr = true → ends 0x204) ∧
      (resident → runs → st.struck = false → st.progErr = false → st.budget ≤ used → ends 0x202) ∧
      (resident → runs → st.struck = true →
        let again := st.reexec < fld s.roll.keepCfg 26 24 ∧ rowFour st = false
        (st.restart = true → s.rowThree st = true → ends 0x10A) ∧
        (st.restart = false ∨ (s.rowThree st = false ∧ ¬ again) → ends 0x201) ∧
        (st.restart = true → s.rowThree st = false → again → fits → st.due ≤ rc → placed (st.reexec + 1))) ∧
      (st.phase = .waiting → st.towers = [] → st.reserved = [] → st.saved = [] → st.struck = false → st.progErr = false →
        (st.fail ≠ 0 → st.due ≤ rc → ends st.fail) ∧
        (st.fail = 0 → st.due ≤ rc → fits → placed st.reexec) ∧
        (rc < st.due → s.roll.occ = [] → ∃ t, moves t ∧ t.mem = s.mem ∧ Tab.find t.steps k = some st)) ∧
      (resident → runs → st.struck = false → st.progErr = false → used < st.budget →
        let pa := Config.predictedPower (now % 2 ^ 64) (List.replicate 32 0) false + env.hostPower.toNat
        let ph := Config.predictedPower (now % 2 ^ 64) (List.replicate 32 0) true + env.hostPower.toNat
        let cap := s.f Reg.pwrCapInForce
        (∀ ops, cap < Config.predictedPower (now % 2 ^ 64) ops false + env.hostPower.toNat) → ∀ onset,
        s.pwr.plan = some (planK pa ph cap, onset) → ∃ t st', moves t ∧ t.mem = s.mem ∧ Holds t Reg.pwrStatFloor 1 ∧
          Tab.find t.steps k = some st' ∧ st'.towers = st.towers ∧ st'.phase = .resident ∧ st'.used = used ∧ st'.offset = st.offset ∧
          ∀ u ∈ st.towers, (t.tw u).held = !activeRoll (planK pa ph cap) (s.roll.passed + 1 - onset + st.offset))) ∧
    (StepBoundary env s → ringOff → ∀ (k v : Nat) (st vt : StepSt), k < 2 ^ 30 → v < 2 ^ 30 → k / 65536 ≠ v / 65536 →
      s.steps = [(k, st), (v, vt)] ∨ s.steps = [(v, vt), (k, st)] → Tab.has s.chans (k / 65536) = true → Tab.has s.chans (v / 65536) = true →
      st.phase = .waiting → st.fail = 0 → st.struck = false → st.progErr = false → st.towers = [] → st.reserved = [] → st.saved = [] →
      st.due ≤ s.roll.rc + s.roll.len →
      st.place = false → vt.phase = .resident → vt.fail = 0 → vt.reserved = [] → vt.struck = false → vt.progErr = false →
      vt.used + 1 < vt.budget → (s.chan (v / 65536)).prio < (s.chan (k / 65536)).prio → (s.chan (v / 65536)).saveBase ≠ 0 →
      (∀ u ∈ vt.towers, u < 128 ∧ (s.tw u).step = some v ∧ (s.tw u).run = .running ∧ (s.tw u).qTur = []) →
      (∀ u < 128, u ∉ vt.towers → (s.tw u).run = .retired) → st.need ≤ vt.towers.length →
      s.saveBytes vt ≤ s.xferMax → (∀ ops, s.saveFits ops vt = true) →
      ∃ t st' vt', moves t ∧ t.mem = s.mem ∧ Tab.find t.steps v = some vt' ∧ vt'.phase = .preempted ∧ t.roll.preempted = 1 ∧
        (∀ u ∈ vt.towers, (t.tw u).run = .saving ∧ (t.tw u).core.g = (s.tw u).core.g ∧ (t.tw u).vregs = (s.tw u).vregs) ∧
        Tab.find t.steps k = some st' ∧ st'.phase = .waiting ∧ st'.reserved.length = st.need ∧ ∀ u ∈ st'.reserved, u ∈ vt.towers)

/-- Frames on ROLL_IN: a wrong CRC is marked, a frame of 63 hops or at a roll source does nothing, and a valid one gives the
lock and is sent on 3 rc later with its hop count one higher, bit by bit; the first one places the next boundary, 3 rc a hop
before the frame, and gives the number. The lock is lost after four rolls without frames. Alignment over the fabric: a module
with FABRIC_ALIGN_EN asks its parent over VC7 and keeps the time it asked; the answer to a neighbour's request leaves by the port the request came by and carries its
arrival and departure times; the reply gives the offset, which is kept (rounded down, the model's choice, log entry 52), and
ALIGNED stands where it is within 3/64 rc, the roll numbers agree and the frames keep the frequency; without replies the
fabric lock is lost, and ALIGNED too unless frames arrive. A written `ROLL_CFG` waits for its boundary. -/
def Obligations.RollsAligned : Prop :=
  (∀ (f : RollFrame) (s : State),
     let h := f.hop.toNat
     let valid := bit s.roll.cfg 0 = false ∧ f.crc.toNat = crc16 h f.roll.toNat ∧ h < 63
     (bit s.roll.cfg 0 = true → exec (.rollFrame f) s = .next s ∧ exec .rollInLoss s = .next s) ∧
     (bit s.roll.cfg 0 = false → f.crc.toNat ≠ crc16 h f.roll.toNat →
       exec (.rollFrame f) s = .next (s.setF Reg.rollStatCrcErr 1)) ∧
     (bit s.roll.cfg 0 = false → f.crc.toNat = crc16 h f.roll.toNat → 63 ≤ h → exec (.rollFrame f) s = .next s) ∧
     (valid → ∃ t, exec (.rollFrame f) s = .next t ∧ Holds t Reg.rollStatInLock 1 ∧ t.mem = s.mem ∧ t.towers = s.towers ∧
       t.out.roll = (if bit s.roll.cfg 1 then s.out.roll ++ [(3, rollFrameBits (h + 1) f.roll.toNat)] else s.out.roll) ∧
       (s.roll.stepped = true → t.roll.len = s.roll.len ∧ t.roll.adopt = s.roll.adopt) ∧
       (s.roll.stepped = false →
         let p : Int := (f.atPhase : Int) - 3 * h
         let d := (p % 1024).toNat
         let number := ((f.roll.toNat : Int) + (1024 + (d : Int) - p) / 1024).toNat
         (s.f Reg.rollPhasePhase < 1024 + d → ¬ (d = 0 ∧ number = s.now + 1) →
           t.roll.len = 1024 + d ∧ t.roll.adopt = some number))) ∧
     (bit s.roll.cfg 0 = false → s.fb Reg.rollStatInLock = true → ∃ t, exec .rollInLoss s = .next t ∧
       Holds t Reg.rollStatLockLost 1 ∧ Holds t Reg.rollStatInLock 0 ∧ t.roll.gaps = [] ∧ t.mem = s.mem)) ∧
  (∀ (s : State) (now : Dword),
     (∀ dir, s.meshRuns = true → s.source = false → bit s.roll.cfg 2 = true → s.parentDir = some dir →
       ∃ t k, exec (.fabricAlignExchange now) s = .next t ∧ t.roll.t1 = some now ∧ t.mem = s.mem ∧ Queues s t dir k ∧
         k.type = 10 ∧ k.vc = 7 ∧ k.dest.toNat = s.neighbour s.self dir % 4096 ∧
         k.data = leBytes 8 now.toNat ++ List.replicate 8 0) ∧
     (∀ (pk : Packet) (t1 t2 t3 pr : Dword) (p : BitVec 5), s.meshRuns = true → s.portUp p.toNat = true →
       s.neighbour s.self (p.toNat % 6) = pk.src.toNat →
       ∃ t k, exec (.align pk (.request p) now t1 t2 t3 pr) s = .next t ∧ t.mem = s.mem ∧ t.roll = s.roll ∧
         (1024 ≤ (s.port p.toNat).replay.length → (s.port p.toNat).hand = [] →
           (t.port p.toNat).txq = (s.port p.toNat).txq ++ [k]) ∧
         k.type = 10 ∧ k.vc = 7 ∧ k.dest.toNat = pk.src.toNat % 4096 ∧ k.data = leBytes 8 now.toNat ++ leBytes 8 t3.toNat) ∧
     (∀ (pk : Packet) (t1 t2 t3 pr : Dword), s.meshRuns = true → s.source = false → s.roll.t1 = some t1 →
       let o := ((t2.toInt - t1.toInt) - (now.toInt - t3.toInt)) / 2
       let near := -3 ≤ o ∧ o ≤ 3
       let ok := near ∧ pr.toNat = s.now ∧ ∀ b ∈ s.roll.gaps, b = true
       ∃ t, exec (.align pk .reply now t1 t2 t3 pr) s = .next t ∧ t.roll.t1 = none ∧ t.mem = s.mem ∧
         Holds t Reg.rollOffsetOffset (o % 2 ^ 32).toNat ∧ (near → Holds t Reg.rollStatFabricLock 1) ∧
         (¬ near → Holds t Reg.rollStatFabricLock 0) ∧ (ok → Holds t Reg.rollStatAligned 1 ∧ t.roll.everAligned = true) ∧
         (¬ ok → Holds t Reg.rollStatAligned 0)) ∧
     (s.source = false → ∃ t, exec .fabricAlignFail s = .next t ∧ Holds t Reg.rollStatFabricLock 0 ∧ t.roll.t1 = none ∧
       (s.roll.near = true → s.roll.agree = true → (∀ b ∈ s.roll.gaps, b = true) → s.fb Reg.rollStatInLock = true →
         Holds t Reg.rollStatAligned 1) ∧
       (s.fb Reg.rollStatInLock = false ∨ s.roll.near = false ∨ s.roll.agree = false → Holds t Reg.rollStatAligned 0)) ∧
     ∀ v : Dword, ∃ t, exec (.rollCfg v) s = .next t ∧ t.roll.cfg = s.roll.cfg ∧ t.mem = s.mem ∧
       Holds t Reg.rollCfgSrcModule (fld v 63 52) ∧ Holds t Reg.rollCfgLateThresh (fld v 47 32) ∧
       Holds t Reg.rollCfgFabricAlignEn (fld v 2 2) ∧ Holds t Reg.rollCfgOutEn (fld v 1 1) ∧
       Holds t Reg.rollCfgSource (fld v 0 0) ∧
       t.roll.cfgDue = (if s.roll.cfgDue = 0 then s.roll.rc + s.f Reg.rollPhasePhase + 256 else s.roll.cfgDue))

/-- The report ring: enabled with a ring that lies in device memory or the window, it starts empty, and otherwise RPT_ERR
says so; the report due is written to its next entry and counted, dropped and counted while the ring is full, and an error
response disables the ring. -/
def Obligations.RollReports : Prop :=
  ∀ (v : Dword) (s : State),
    let n := fld v 5 1
    let size := if 6 ≤ n ∧ n ≤ 16 then n else s.f Reg.rollRptCtrlLog2n
    let base := fld (s.rd Reg.rollRptBase) 44 6 * 64
    (s.fb Reg.rollRptCtrlEn = false → bit v 0 = true → ∃ t, exec (.rollRptCtrl v) s = .next t ∧ t.mem = s.mem ∧
      Holds t Reg.rollRptCtrlLog2n size ∧
      (s.inDevOrWin base (64 * 2 ^ size) = true → Holds t Reg.rollRptCtrlEn 1 ∧ Holds t Reg.rollRptProdProd 0 ∧
        Holds t Reg.rollRptConsCons 0 ∧ Holds t Reg.rollRptDropDrop 0) ∧
      (s.inDevOrWin base (64 * 2 ^ size) = false → Holds t Reg.rollRptCtrlEn 0 ∧ Holds t Reg.rollStatRptErr 1)) ∧
    (bit v 0 = false → ∃ t, exec (.rollRptCtrl v) s = .next t ∧ Holds t Reg.rollRptCtrlEn 0) ∧
    (∀ (bs : List Byte) (r : Resp), s.roll.due = some bs → s.fb Reg.rollRptCtrlEn = true →
      let prod := s.f Reg.rollRptProdProd
      let ring := 2 ^ s.f Reg.rollRptCtrlLog2n
      let a := base + prod % ring * 64
      let full := (prod + 2 ^ 32 - s.f Reg.rollRptConsCons) % 2 ^ 32 = ring
      (full → ∃ t, exec (.rollReportRingWrite r) s = .next t ∧ t.roll.due = none ∧ Counts s t Reg.rollRptDropDrop 1 ∧
        t.mem = s.mem ∧ t.hostMem = s.hostMem) ∧
      (¬ full → inWindow a bs.length = true → s.lateWrites = [] →
        (∃ t, exec (.rollReportRingWrite .ok) s = .next t ∧ t.roll.due = none ∧ t.mem = s.mem ∧
          t.hostMem = (s.storeHost (s.hostAddr a) bs).hostMem ∧ Holds t Reg.rollRptProdProd (prod + 1)) ∧
        ∃ t, exec (.rollReportRingWrite .hostErr) s = .next t ∧ t.hostMem = s.hostMem ∧ Holds t Reg.rollRptCtrlEn 0 ∧
          Holds t Reg.rollStatRptErr 1) ∧
      (¬ full → inWindow a bs.length = false → Answers s a bs.length → Memory.wf s.mem = true →
        Tab.sortedFrom 0 s.bad = true → ∃ t, exec (.rollReportRingWrite r) s = .next t ∧ Stored s t a bs ∧
        Holds t Reg.rollRptProdProd (prod + 1)))

/-- Doorbells and descriptors: a doorbell moves its channel's pointers, after an abort CQ_CONS alone, unless its generation or range is
wrong, which counts (R456, R458). Descriptors are consumed in the order of the doorbells (R459): the one whose turn it is has its
128 bytes read and the step accepted, with the status of the first check that fails; a ring the host die answers with an error faults
the channel, an error on the region list alone fails the step (R462). `KEEP_CFG` keeps fields out of range. -/
def Obligations.StepsAccepted : Prop :=
  ∀ (n : BitVec 14) (v : Dword) (s : State),
    let c := s.chan n.toNat
    let prod := fld v 15 0
    let cons := fld v 31 16
    let aborted := c.state = 2 ∨ (c.state = 3 ∧ c.abortPend = true)
    let bad := c.live = false ∨ fld v 63 48 ≠ c.gen ∨ (¬ aborted ∧ 2 ^ c.sqLog < (prod + 65536 - c.sqCons) % 65536) ∨
      (c.posted + 65536 - c.cqCons) % 65536 < (cons + 65536 - c.cqCons) % 65536
    (bad → exec (.keepDbn n v) s = .next (s.satF Reg.keepDbRejCount 1)) ∧
    (¬ bad → ∃ t, exec (.keepDbn n v) s = .next t ∧ t = { s with chans := t.chans, adm := { s.adm with bells := t.adm.bells } } ∧
      t.chan n.toNat = { c with cqCons := cons, sqProd := if c.state = 2 ∨ (c.state = 3 ∧ c.abortPend = true) then c.sqProd else prod } ∧
      (∀ m, m ≠ n.toNat → t.chan m = s.chan m) ∧ (aborted → t.adm = s.adm) ∧ (∀ e ∈ s.adm.bells, e.1 ≠ n.toNat → e ∈ t.adm.bells) ∧
      (¬ aborted → c.sqCons < 65536 → prod ≠ c.sqCons → ∃ e ∈ t.adm.bells, e.1 = n.toNat)) ∧
    (∀ r, s.gateOpen n.toNat = false ∨ s.nextToConsume ≠ some n.toNat → exec (.descriptorConsume n r) s = .next s) ∧
    (∀ m p rest, s.adm.bells = (m, p) :: rest → s.gateOpen m = true → (s.chan m).sqCons ≠ p → s.nextToConsume = some m) ∧
    (s.nextToConsume = some n.toNat →
      let i := c.sqCons
      let a := c.sqBase + 128 * (i % 2 ^ c.sqLog)
      let key := n.toNat * 65536 + i
      (∀ r, Answers s a 128 → ∃ t st, exec (.descriptorConsume n r) s = .next t ∧ Tab.find t.steps key = some st ∧
        st.desc = memAt s a 128 ∧ st.due = s.stamp ∧ st.phase = .waiting ∧ st.towers = [] ∧ t.mem = s.mem ∧
        t.chan n.toNat = { c with sqCons := (i + 1) % 65536 } ∧
        (∀ k, k ≠ key → Tab.find t.steps k = Tab.find s.steps k) ∧
        (s.descMalformed st.desc = true → st.fail = 0x102) ∧
        (s.descMalformed st.desc = false → inWindow (leAt st.desc 0x50 8) (16 * (leAt st.desc 0x58 2 + leAt st.desc 0x5A 2)) = true →
          leAt st.desc 0x58 2 + leAt st.desc 0x5A 2 ≠ 0 → r.list = .hostErr → st.fail = 0x201 ∧ Holds t Reg.hstStatHosterr 1) ∧
        (s.descMalformed st.desc = false → leAt st.desc 0x58 2 + leAt st.desc 0x5A 2 = 0 →
          let wrong := leAt st.desc 5 1 = 0 ∨ 7 ≤ leAt st.desc 6 1 % 16 ∨ (st.place = true ∧ st.named.length ≠ st.need) ∨
            (st.place = false ∧ st.mask ≠ 0) ∨ (c.saveBase ≠ 0 ∧ c.saveTowers < st.need)
          let short := s.f Reg.keepStatTowers < st.need ∨ (st.place = true ∧ ∃ u ∈ st.named, (s.tw u).run = .retired)
          (wrong → st.fail = 0x103) ∧ (¬ wrong → short → st.fail = 0x10A) ∧ (¬ wrong → ¬ short → st.fail = 0))) ∧
      (inWindow a 128 = true → ∀ l, ∃ t, exec (.descriptorConsume n ⟨.hostErr, l⟩) s = .next t ∧ (t.chan n.toNat).state = 3 ∧
        t.steps = s.steps ∧ Holds t Reg.hstStatHosterr 1)) ∧
    ∃ t, exec (.keepCfg v) s = .next t ∧ t.roll.keepCfg = s.roll.keepCfg ∧ Holds t Reg.keepCfgReexecMax (fld v 26 24) ∧
      Holds t Reg.keepCfgSlice (if fld v 39 32 = 0 then s.f Reg.keepCfgSlice else fld v 39 32) ∧
      Holds t Reg.keepCfgXferMax (if 1 ≤ fld v 10 0 ∧ fld v 10 0 ≤ 1024 then fld v 10 0 else s.f Reg.keepCfgXferMax)

/-- Dispatch puts every Tower of the step into its entry state: rank by ascending number, the arguments in g1 to g4, the
program counter and two segments from the descriptor, nothing else held over (R301, R465). The end of a step on a channel
that is not FAULTED: its Towers are free, it is gone, and its completion entry stands in the ring with the phase bit of its
lap, counted as posted (R56, R460). Contexts: a Tower that saves and has nothing under way is free once it has, its context
kept with its rank, and no byte of memory outside the slot of its rank in the save area is changed (where in the area a
context stands is the model's choice, log entry 73), and a register error met meanwhile is a machine check (R505); a Tower that restores waits for its step's others, and with the last all
issue again; an error response in a restore strikes the step. -/
def Obligations.StepsRunAndEnd : Prop :=
  (∀ (k : Nat) (ts : List Nat) (st : StepSt) (s : State), Tab.find s.steps k = some st → ts.Pairwise (· < ·) →
     (∀ x ∈ ts, x < 128) →
     let t := s.dispatch k ts
     (∃ st', Tab.find t.steps k = some st' ∧ st'.phase = .resident ∧ st'.towers = ts) ∧ t.mem = s.mem ∧ Entered t k st ts) ∧
  (∀ (k status : Nat) (st : StepSt) (s : State), Tab.find s.steps k = some st → Tab.sortedFrom 0 s.steps = true →
     let c := s.chan (k / 65536)
     let a := c.cqBase + 32 * (c.posted % 2 ^ c.cqLog)
     c.state ≠ 3 → (∀ u ∈ st.towers, u < 128 ∧ s.fb (Reg.twrStatMchk u) = false) →
     Answers s a 32 → Memory.wf s.mem = true → Tab.sortedFrom 0 s.bad = true →
     let t := s.finish k status []
     Tab.find t.steps k = none ∧ (t.chan (k / 65536)).posted = (c.posted + 1) % 65536 ∧
     (∀ u ∈ st.towers, (t.tw u).run = .free ∧ (t.tw u).step = none) ∧
     Stored s t a (entryBytes st k status c.posted c.cqLog st.used st.energy s.now)) ∧
  (∀ (u : TId) (k : Nat) (st : StepSt) (s : State), let n := u.toNat
     (s.tw n).step = some k → Tab.find s.steps k = some st →
     ((s.tw n).run = .saving → ∃ t, exec (.contextSave ⟨u, .regs⟩) s = .next t ∧ MachineChecked u s t) ∧
     (∀ up, up ≠ .regs → (s.tw n).run = .saving → s.fb (Reg.twrStatMchk n) = false →
       Quiet (.tower u) s → AllClean (s.core (.tower u)) → EnginesIdle (s.tw n) → (s.tw n).plans = [] →
       (s.tw n).begun = [] → (s.tw n).turPart = none → Memory.wf s.mem = true →
       ∃ t x st', exec (.contextSave ⟨u, up⟩) s = .next t ∧ (t.tw n).run = .free ∧ (t.tw n).step = none ∧
         (let c := s.chan (k / 65536)
          let slot := c.saveBase + 0x10000 + x.rank * 0x180000
          ∀ a, ¬ (x.rank < c.saveTowers ∧ slot ≤ a ∧ a < slot + ceilDiv x.bytes 64 * 64) →
            Tab.get 0 t.mem a = Tab.get 0 s.mem a) ∧
         Tab.find t.steps k = some st' ∧ st'.saved = st.saved ++ [x] ∧ st'.towers = st.towers.filter (· ≠ n) ∧
         x.rank = (s.tw n).rank ∧ x.tower.vregs = (s.tw n).vregs ∧ x.tower.core.g = (s.tw n).core.g ∧
         x.tower.core.pc = (s.tw n).core.pc ∧ x.tower.localBits = (s.tw n).localBits) ∧
     (∀ up, (s.tw n).run ≠ .saving → exec (.contextSave ⟨u, up⟩) s = .next s) ∧
     ((s.tw n).run = .restoring →
       (∃ t, exec (.contextRestore u true) s = .next t ∧ t.mem = s.mem ∧ StrikesStep n s t) ∧
       ((∃ v ∈ st.towers, v ≠ n ∧ (s.tw v).run = .restoring) → ∃ t, exec (.contextRestore u false) s = .next t ∧
         (t.tw n).run = .restored ∧ ∀ v, v ≠ n → t.tw v = s.tw v) ∧
       (n ∈ st.towers → (∀ v ∈ st.towers, v ≠ n → (s.tw v).run = .restored) → ∃ t, exec (.contextRestore u false) s = .next t ∧
         (∀ v ∈ st.towers, (t.tw v).run = .running) ∧ t.mem = s.mem ∧ t.steps = s.steps)))

/-! Wennum commands (R442–R457, R485, R502, R524, R548–R557, R565). -/

/-- Checks of every packet: outside its service a ring packet is not taken, and between boundaries, or behind others, or where the boundary has changed
steps already, it waits for the next (the model's reading of a packet that comes by its own row, log entry 54); at a boundary a malformed field is 0x0102, a handle of no live channel 0x0106, an opcode that SMBus does not carry 0x0107, with no state
changed but the reply. The admin ring: a producer value beyond the ring is ignored and marked; enabling the ring empties it;
the next reply is written to its entry and counted in DONE, a created channel with its reply is live, and an error response
stops the ring. -/
def Obligations.WennumAndAdminRing : Prop :=
  (∀ (w : Wennum) (s : State),
     (∀ o i, WennumRow .ring w o i → (s.alive = false ∨ s.ready = false ∨ s.fb Reg.keepAdmCtrlEn = false → exec i s = .next s) ∧
       (s.alive = true → s.ready = true → s.fb Reg.keepAdmCtrlEn = true →
         s.f Reg.rollPhasePhase ≠ 0 ∨ s.roll.settled = false ∨ s.adm.rows ≠ [] →
         exec i s = .next { s with adm := { s.adm with rows := s.adm.rows ++ [(s.stamp, o, w)] } }) ∧
       (RingServes s → ¬ FinePacket w → Rejected i o w s 0x102) ∧
       (RingServes s → FinePacket w → o ∈ [0x11, 0x12, 0x13, 0x14, 0x15, 0x21] →
         (s.chan (w.handle.toNat % 16384)).live = false ∨ (s.chan (w.handle.toNat % 16384)).gen ≠ w.handle.toNat / 65536 →
         Rejected i o w s 0x106)) ∧
     ∀ o i, WennumRow .smbus w o i → s.boot.power = true → s.alive = true → s.boot.tap ≠ .extest →
       s.smb.pending = none → s.smb.lastSeq ≠ some w.seq →
       ((s.f Reg.rollPhasePhase = 0 ∧ s.roll.settled = true) ∨ s.ready = false → FinePacket w → w.handle = 0 →
         o ∉ [0x01, 0x02, 0x03, 0x20, 0x30, 0x62] → ∃ t, exec i s = .next t ∧ t = { s with smb := t.smb } ∧
         t.smb = { reply := replyOf o w s 0x107 0 [], lastSeq := some w.seq }) ∧
       (s.f Reg.rollPhasePhase ≠ 0 ∨ s.roll.settled = false → s.ready = true → s.boot.responder = false → exec i s =
         .next { s with smb := { s.smb with pending := some (BitVec.ofNat 16 o, w), pendDue := s.stamp } })) ∧
  (∀ (v : Dword) (s : State),
     let size := 2 ^ s.f Reg.keepAdmCtrlLog2n
     let done := s.f Reg.keepAdmDoneDone
     let far := size < (fld v 31 0 + 2 ^ 32 - done) % 2 ^ 32
     (far → exec (.keepAdmProd v) s = .next (s.setF Reg.keepStatAdmOvf 1)) ∧
     (¬ far → ∃ t, exec (.keepAdmProd v) s = .next t ∧ Holds t Reg.keepAdmProdProd (fld v 31 0) ∧
       t.adm.inputs = (if s.fb Reg.keepAdmCtrlEn then s.adm.inputs ++ [(fld v 31 0, s.stamp)] else s.adm.inputs) ∧
       t.adm.replies = s.adm.replies) ∧
     (s.fb Reg.keepAdmCtrlEn = false → bit v 0 = true → ∃ t, exec (.keepAdmCtrl v) s = .next t ∧
       t.adm = { bells := s.adm.bells } ∧
       Holds t Reg.keepAdmCtrlEn 1 ∧ Holds t Reg.keepAdmProdProd 0 ∧ Holds t Reg.keepAdmDoneDone 0 ∧
       Holds t Reg.keepAdmCtrlLog2n (if 4 ≤ fld v 5 1 ∧ fld v 5 1 ≤ 12 then fld v 5 1 else s.f Reg.keepAdmCtrlLog2n)) ∧
     (bit v 0 = false → ∃ t, exec (.keepAdmCtrl v) s = .next t ∧ Holds t Reg.keepAdmCtrlEn 0 ∧ t.mem = s.mem) ∧
     ∀ (r : Reply) (rs : List Reply), s.adm.replies = r :: rs → r.waits = none → r.data = [] → s.alive = true →
       s.fb Reg.keepAdmCtrlEn = true → s.boot.resetAfter = none → s.lateWrites = [] →
       let a := fld (s.rd Reg.keepAdmRbase) 44 5 * 32 + done % size * 32
       inWindow a r.bytes.length = true →
       (∃ t, exec (.adminReplyWrite ⟨.ok, .ok⟩) s = .next t ∧ t.hostMem = (s.storeHost (s.hostAddr a) r.bytes).hostMem ∧
         Holds t Reg.keepAdmDoneDone (done + 1) ∧ t.adm.replies = rs ∧ t.mem = s.mem ∧
         (r.irq = true → Holds t Reg.keepIrqStatAdmin 1) ∧
         ∀ n, r.opens = some n → (s.chan n).state ≠ 0 → (t.chan n).live = true) ∧
       ∀ x, ∃ t, exec (.adminReplyWrite ⟨x, .hostErr⟩) s = .next t ∧ t.hostMem = s.hostMem ∧ Holds t Reg.keepAdmCtrlEn 0 ∧
         Holds t Reg.keepStatAdmErr 1 ∧ t.adm.replies = [] ∧ Holds t Reg.keepAdmDoneDone done)

/-- Channel commands of the ring that pass their checks (R453–R457, R502); items 3 to 6 of the boundary follow one that changes what
they see, and find no head step on a module without steps. -/
def Obligations.ChannelCommands : Prop :=
  ∀ (w : Wennum) (s : State), RingServes s → FinePacket w →
    let h := w.handle.toNat
    let n := h % 16384
    let c := s.chan n
    let live := c.live = true ∧ c.gen = h / 65536
    let others := fun (t : State) (m : Nat) => ∀ j, j ≠ m → t.chan j = s.chan j
    let rest := fun (t : State) => ∀ j, j ≠ n → t.chan j = { s.chan j with headed := false }
    (∀ m b, let x : Channel := {
        state := 1, sqBase := par w 0x10 8, cqBase := par w 0x18 8, saveBase := par w 0x20 8, sqLog := par w 0x28 1
        cqLog := par w 0x29 1, asid := par w 0x2A 1, prio := par w 0x2B 1, weight := par w 0x2C 2, bwinLen := par w 0x2E 2
        saveTowers := par w 0x30 1, irq := decide (par w 0x31 1 = 1) }
      x.sqBase % 4096 = 0 → x.cqBase % 4096 = 0 → x.saveBase % 4096 = 0 → x.prio < 8 → par w 0x31 1 < 2 →
      4 ≤ x.sqLog → x.sqLog ≤ 12 → 4 ≤ x.cqLog → x.cqLog ≤ 12 → 1 ≤ x.weight → x.weight ≤ 1024 → x.bwinLen ≤ 1024 →
      x.saveTowers ≤ 128 → (x.saveBase = 0 ↔ x.saveTowers = 0) → s.ringsIn x = true →
      (x.saveBase ≠ 0 → s.inDevice x.saveBase (0x10000 + x.saveTowers * 0x180000) = true) →
      m < 16384 → (s.chan m).state = 0 → (s.chan m).gen < 0xFFFF →
      (∀ j < m, ¬ ((s.chan j).state = 0 ∧ (s.chan j).gen < 0xFFFF)) → s.freeWindow x.bwinLen = some b →
      s.chanOverlap none x = false →
      ∃ t, Answered (.chanCreate .ring w) 0x10 w s t 0 (((s.chan m).gen + 1) * 65536 + m) [] [] ∧ others t m ∧
        t.chan m = { x with gen := (s.chan m).gen + 1, bwinBase := b }) ∧
    (live → s.stepsOf n = [] → c.heldC = [] → (∀ e ∈ s.colls, ¬ (e.2.bound = true ∧ e.2.chan = h)) →
      ∃ t, Answered (.chanDestroy .ring w) 0x11 w s t 0 h [] [] ∧ t.chan n = { gen := c.gen } ∧ others t n) ∧
    (live → s.stepsOf n ≠ [] ∨ c.heldC ≠ [] → Rejected (.chanDestroy .ring w) 0x11 w s 0x107) ∧
    (live → par w 0x10 1 < 8 → par w 0x11 1 = 0 → 1 ≤ par w 0x12 2 → par w 0x12 2 ≤ 1024 →
      ∃ t, Answered (.chanSet .ring w) 0x12 w s t 0 h [] [] ∧ (t.chan n).prio = par w 0x10 1 ∧ (t.chan n).weight = par w 0x12 2 ∧
        (s.steps = [] → t.mem = s.mem ∧ rest t ∧
          t.chan n = { c with prio := par w 0x10 1, weight := par w 0x12 2, headed := false })) ∧
    (live → ∃ t, Answered (.chanAbort .ring w) 0x13 w s t 0 h [] [] ∧ (∀ e ∈ t.adm.bells, e.1 ≠ n) ∧
      (s.steps = [] → t.mem = s.mem ∧ rest t ∧ t.chan n =
        (if c.state = 3 then { c with abortPend := true, headed := false } else { c with state := 2, headed := false })) ∧
      (∀ k st, s.steps = [(k, st)] → k / 65536 = n → c.state ≠ 3 → s.stepOut st = false → Memory.wf s.mem = true →
        Tab.sortedFrom 0 s.bad = true → (∀ u ∈ st.towers, u < 128 ∧ s.fb (Reg.twrStatMchk u) = false) →
        let a := c.cqBase + 32 * (c.posted % 2 ^ c.cqLog)
        Answers s a 32 → t.steps = [] ∧ (t.chan n).posted = (c.posted + 1) % 65536 ∧ (∀ u ∈ st.towers, (t.tw u).step = none) ∧
          Stored s t a (entryBytes st k 0x203 c.posted c.cqLog st.used st.energy s.now))) ∧
    (live → c.state = 3 → c.heldC = [] → par w 0x10 8 % 4096 = 0 → par w 0x18 8 % 4096 = 0 →
      let x := { c with sqBase := par w 0x10 8, cqBase := par w 0x18 8 }
      s.ringsIn x = true → s.chanOverlap (some n) x = false → ∃ t, Answered (.chanRing .ring w) 0x14 w s t 0 h [] [] ∧
        (t.chan n).sqBase = x.sqBase ∧ (t.chan n).cqBase = x.cqBase ∧ (s.steps = [] → t.mem = s.mem ∧ rest t ∧
          t.chan n = { x with state := if c.abortPend then 2 else 1, abortPend := false, headed := false })) ∧
    (live → c.state ≠ 3 → par w 0x10 8 % 4096 = 0 → par w 0x18 8 % 4096 = 0 → Rejected (.chanRing .ring w) 0x14 w s 0x107) ∧
    (live → s.headOf n = none → ∃ t, t = { s with adm := t.adm } ∧ Answered (.chanQuery .ring w) 0x15 w s t 0 h
      (leBytes 1 c.state ++ [0, 0] ++ leBytes 1 c.prio ++ leBytes 2 c.sqCons ++ leBytes 2 c.posted ++ leBytes 2 c.sqProd
        ++ leBytes 2 c.weight ++ leBytes 4 c.heldC.length) []) ∧
    (live → par w 0x10 48 < 2 → ∃ t, others t n ∧ Answered (.energyQuery .ring w) 0x21 w s t 0 h
        (leBytes 8 c.exactUj ++ leBytes 8 c.sharedUj) [] ∧
      t.chan n = (if par w 0x10 1 = 1 then { c with exactUj := 0, sharedUj := 0 } else c))

/-- Commands of the module on the ring that pass their checks: identity, status, the log, roll reports, the power cap,
migration and collective slots (R401, R429, R446, R450, R452, R485, R524, R550). A slot keeps its bits and its count of
generations (the model's reading, log entry 55). -/
def Obligations.ModuleCommands : Prop :=
  ∀ (w : Wennum) (s : State), RingServes s → FinePacket w →
    let h := w.handle.toNat
    let d := fun (o n : Nat) => par w o 8 % 64 = 0 ∧ s.inDevOrWin (par w o 8) n = true
    (d 0x10 64 → ∃ t, Answered (.ident .ring w) 0x01 w s t 0 h [] (s.identRecord s.boot.state) ∧
      t.boot.identity = s.identRecord s.boot.state ∧ t.mem = s.mem) ∧
    (¬ d 0x10 64 → Rejected (.ident .ring w) 0x01 w s 0x103) ∧
    (∃ t rest, t = { s with adm := t.adm } ∧ Answered (.modStatus .ring w) 0x02 w s t 0 h rest [] ∧
      rest.take 2 = leBytes 2 (1 + 2 * s.f Reg.rollStatAligned + 4 * s.f Reg.memStatDegraded
        + 8 * fld (s.readReg Reg.gwlStat) Reg.gwlStatDegraded.hi Reg.gwlStatDegraded.lo + 16 * s.f Reg.keepStatLeaderOnly) ∧
      rest.drop 2 = leBytes 1 (s.f Reg.keepStatTowers) ++ [0] ++ leBytes 2 (s.f Reg.pwrCapInForce) ++ (rest.drop 6).take 2
        ++ leBytes 2 s.liveChans ++ [0, 0] ++ leBytes 4 (s.f Reg.memSizeSize / 65536)) ∧
    (par w 0x1A 6 = 0 → 1 ≤ par w 0x18 2 → par w 0x18 2 ≤ 4096 → d 0x20 (64 * par w 0x18 2) →
      let rs := (s.flash.log.filter (fun e => decide (par w 0x10 8 ≤ e.1))).take (par w 0x18 2)
      let first := match rs with | e :: _ => e.1 | [] => s.flash.seq
      ∃ t, t = { s with adm := t.adm } ∧ Answered (.logRead .ring w) 0x03 w s t 0 h (leBytes 8 first ++ leBytes 2 rs.length)
        (rs.flatMap (·.2))) ∧
    (∀ e, s.roll.reports.find? (fun e => decide (e.1 = par w 0x10 8)) = some e → d 0x18 64 →
      ∃ t, t = { s with adm := t.adm } ∧ Answered (.rollReport .ring w) 0x30 w s t 0 h [] e.2) ∧
    ((∀ e ∈ s.roll.reports, e.1 ≠ par w 0x10 8) → Rejected (.rollReport .ring w) 0x30 w s 0x103) ∧
    (par w 0x12 30 = 0 → let cap := par w 0x10 2
      (600 ≤ cap → cap ≤ 1800 → ∃ t, Answered (.capSet .ring w) 0x20 w s t 0 h (leBytes 2 (min (s.f Reg.pwrCapSmb) cap)) [] ∧
        Holds t Reg.pwrCapDrv cap ∧ Holds t Reg.pwrCapInForce (min (s.f Reg.pwrCapSmb) cap) ∧ (s.steps = [] → t.mem = s.mem)) ∧
      (cap < 600 ∨ 1800 < cap → Rejected (.capSet .ring w) 0x20 w s 0x103)) ∧
    (∀ bs src, let size := if par w 0x19 1 = 1 then 0x200000 else 0x10000
      let count := par w 0x1A 2 + 1
      let frames := (range 0 count).map (fun i => leAt bs (8 * i) 8)
      let dst := frames.map (fun f => s.self * 2 ^ 45 + f)
      par w 0x10 8 % size = 0 → par w 0x1C 4 = 0 → par w 0x28 24 = 0 → par w 0x20 8 % 8 = 0 → par w 0x19 1 < 2 →
      s.inDevOrWin (par w 0x20 8) (8 * count) = true → s.keepRead (par w 0x20 8) (8 * count) = (some bs, s) →
      (∀ f ∈ frames, f % size = 0 ∧ s.inDevOrWin f size = true) → s.xlt.migs = [] →
      s.migSources (par w 0x18 1) size count (par w 0x10 8) = some src → dst.Nodup → (∀ f ∈ dst, f ∉ src) →
      par w 0x10 8 + size * count ≤ 2 ^ 48 →
      ∃ t, Answered (.migrate .ring w) 0x40 w s t 0 h [] [] ∧
        (t.adm.replies.getLast?).map (·.waits) = some (some s.xlt.migSerial) ∧
        t.xlt.migs = [⟨s.xlt.migSerial, par w 0x18 1, par w 0x10 8, decide (size = 0x200000), frames⟩]) ∧
    (let slot := par w 0x10 2
     let x : CollSlot := {
       bound := true, op := par w 0x12 1, cls := par w 0x13 1, chan := par w 0x14 4, localN := par w 0x18 2
       m := par w 0x1A 2, n := par w 0x1C 2, origin := par w 0x20 2, ext := par w 0x22 2, groupId := par w 0x24 4
       src := par w 0x28 8, stride := par w 0x30 4, dst := par w 0x38 8
       gen := (s.coll slot).gen, phase := (s.coll slot).phase, err := (s.coll slot).err }
     par w 0x1E 2 = 0 → x.origin < 0x1000 → x.ext < 0x1000 → par w 0x34 4 = 0 → x.src % 64 = 0 → x.dst % 64 = 0 →
     x.chan / 16384 % 4 = 0 → slot < 512 → collValues x.op x.cls x.localN x.m x.n = true → x.stride % 64 = 0 → x.groupId ≠ 0 →
     (∀ i < 3, x.extent i ≤ s.ring i ∧ coord x.origin i < s.ring i) → s.inBox x s.self = true →
     s.inDevOrStore x.src (128 * x.stride) = true → s.inDevOrStore x.dst x.stride = true →
     (s.liveHandle x.chan).isSome = true → (s.coll slot).bound = false → (s.coll slot).early = [] →
     overlaps x.dst x.stride x.src (128 * x.stride) = false →
     ∃ t, Answered (.collBind .ring w) 0x50 w s t 0 h [] [] ∧ t.coll slot = x ∧ ∀ m, m ≠ slot → t.coll m = s.coll m) ∧
    (let slot := par w 0x10 2
     let c := s.coll slot
     (512 ≤ slot → Rejected (.collUnbind .ring w) 0x51 w s 0x103) ∧
     (slot < 512 → c.bound = true → c.arrived = [] → c.got = [] → ∃ t, Answered (.collUnbind .ring w) 0x51 w s t 0 h [] [] ∧
       t.coll slot = { gen := c.gen, phase := c.phase, err := c.err } ∧ t.mem = s.mem ∧ ∀ m, m ≠ slot → t.coll m = s.coll m) ∧
     (slot < 512 → c.bound = true → c.arrived ≠ [] ∨ c.got ≠ [] → Rejected (.collUnbind .ring w) 0x51 w s 0x105))

/-- Firmware, attestation, layout and reset on the ring: an image is staged and, once verified, programmed into the slot
that is not active, which holds no image where the programming fails; activation, a new layout and a return to service are queued for the flash; a report is asked for, signed
and then returned; RESET is accepted unless a staging or a migration is in progress and FORCE is 0 (R548–R557). -/
def Obligations.FirmwareCommands : Prop :=
  ∀ (w : Wennum) (s : State),
    (RingServes s → FinePacket w →
      let h := w.handle.toNat
      let src := par w 0x10 8
      let len := par w 0x18 4
      (∀ bs, src % 4096 = 0 → par w 0x1C 1 = 0 → par w 0x1D 35 = 0 → 0x2000 ≤ len → len ≤ 0x1000000 →
        s.inDevOrWin src len = true → s.boot.stage = none → s.keepRead src len = (some bs, s) →
        ∃ t, Answered (.fwStage .ring w) 0x60 w s t 0 h [] [] ∧ Holds t Reg.secStatStage 1 ∧
          t.boot.stage = some ⟨src, len, imageCode bs s.flash.svnMin, bs⟩) ∧
      (s.boot.stage = none → 0x2000 ≤ (if s.flash.active then s.flash.slotA else s.flash.slotB).length →
        s.f Reg.secStatStage ≠ 3 →
        ∃ t, Answered (.fwActivate .ring w) 0x61 w s t 0 h [] [] ∧
          t.flashq.recs = s.flashq.recs ++ [.boot (!s.flash.active) true false]) ∧
      (par w 0x10 48 < 2 → s.fb Reg.memStatMigrating = false → ∃ t, Answered (.relayout .ring w) 0x63 w s t 0 h [] [] ∧
        t.flashq.recs = s.flashq.recs ++ [.relayout (decide (par w 0x10 1 = 0))]) ∧
      (par w 0x14 1 % 2 = 1 → ∃ t, Answered (.unretire .ring w) 0x64 w s t 0 h [] [] ∧
        t.flashq.recs = s.flashq.recs ++ [.unretire (par w 0x10 4) true]) ∧
      (let busy := s.boot.stage ≠ none ∨ ∃ m ∈ s.xlt.migs, m.frames ≠ []
       (par w 0x10 1 = 128 ∨ (par w 0x10 1 = 0 ∧ ¬ busy) →
         ∃ t, Answered (.reset .ring w) 0x65 w s t 0 h [] [] ∧ t.boot.resetAfter = some s.adm.taken) ∧
       (par w 0x10 1 = 0 → busy → Rejected (.reset .ring w) 0x65 w s 0x107)) ∧
      (par w 0x30 1 = 1 → par w 0x31 1 = 0 → par w 0x32 6 = 0 → par w 0x38 8 % 64 = 0 →
        s.inDevOrWin (par w 0x38 8) Config.certChain.length = true → ∃ t, t = { s with adm := t.adm } ∧
        Answered (.attest .ring w) 0x62 w s t 0 h
          (leBytes 4 Config.certChain.length ++ leBytes 1 ((Config.certChain.length + 127) / 128)) Config.certChain) ∧
      (par w 0x30 1 < 2 → par w 0x31 1 = 0 → par w 0x32 6 = 0 → par w 0x38 8 % 64 ≠ 0 → Rejected (.attest .ring w) 0x62 w s 0x103) ∧
      (par w 0x30 1 = 0 → par w 0x31 1 = 0 → par w 0x32 6 = 0 → par w 0x38 8 % 64 = 0 →
        s.inDevOrWin (par w 0x38 8) 0x400 = true → let nonce := leBytes 32 (par w 0x10 32)
        (s.boot.report = none → ∃ t, Answered (.attest .ring w) 0x62 w s t 0x105 h [] [] ∧
          t.boot.report = some ⟨nonce, false, []⟩) ∧
        (∀ r, s.boot.report = some r → r.nonce = nonce → r.signed = true →
          s.inDevOrWin (par w 0x38 8) r.bytes.length = true → ∃ t, t = { s with adm := t.adm } ∧
          Answered (.attest .ring w) 0x62 w s t 0 h
            (leBytes 4 r.bytes.length ++ leBytes 1 ((r.bytes.length + 127) / 128)) r.bytes))) ∧
    (∀ r, s.boot.report = some r → r.signed = false → ∃ t r', exec .attestSigned s = .next t ∧ t.boot.report = some r' ∧
      r'.nonce = r.nonce ∧ r'.signed = true ∧ t.mem = s.mem ∧ t.regs = s.regs) ∧
    ∀ st, s.boot.stage = some st →
      (st.code ≠ 0 → ∀ ok, ∃ t, exec (.fwStageDone ok) s = .next t ∧ t.boot.stage = none ∧ t.flash = s.flash ∧
        Holds t Reg.secStatStage 3 ∧ Holds t Reg.secStatStageCode st.code) ∧
      (st.code = 0 → ∃ t, exec (.fwStageDone true) s = .next t ∧ t.boot.stage = none ∧ Holds t Reg.secStatStage 2 ∧
        t.flash = (if s.flash.active then { s.flash with slotA := st.image, madeA := false }
          else { s.flash with slotB := st.image, madeB := false }) ∧
        Holds t (if s.flash.active then Reg.secFwVerA else Reg.secFwVerB) (leAt st.image 0 4)) ∧
      (st.code = 0 → ∃ t, exec (.fwStageDone false) s = .next t ∧ t.boot.stage = none ∧ Holds t Reg.secStatStage 3 ∧
        Holds t Reg.secStatStageCode 1 ∧
        t.flash = (if s.flash.active then { s.flash with slotA := [], madeA := false } else { s.flash with slotB := [], madeB := false }) ∧
        Holds t (if s.flash.active then Reg.secFwVerA else Reg.secFwVerB) 0)

/-- The SMBus target: a transaction to another address, with another command code or a wrong PEC, or with nobody to serve it, is not
acknowledged, nor any while EXTEST drives the pins (R447, R530, R551); a packet waits, one at a time and never the same sequence number
twice; until it is answered the reply is BUSY with its SEQ and HANDLE (its ROLL is the roll number as it stands: the model's choice,
log entry 121), afterwards the last reply; before READY a waiting packet is answered at once. -/
def Obligations.SmbusTarget : Prop :=
  ∀ (op : Half) (w : Wennum) (x : SmbFrame) (s : State),
    let acks := fun (t : State) (bs : List Byte) => t = { s with smb := t.smb, out := { s.out with smb := some (true, bs) } }
    let naks : State := { s with out := { s.out with smb := some (false, []) } }
    let served := s.boot.power = true ∧ s.boot.tap ≠ .extest ∧ (s.alive = true ∨ s.boot.responder = true)
    let heard := fun (code : Byte) => served ∧ x.addr.toNat = 0x58 + s.boot.straps ∧ x.code = code ∧ x.pecOk = true
    (¬ heard 0xC0 → exec (.smbusPacket op w x) s = .next naks) ∧
    (¬ heard 0xC1 → exec (.smbusReply x) s = .next naks) ∧
    (¬ heard 0xC2 → exec (.smbusData x) s = .next naks) ∧
    (heard 0xC0 →
      (s.smb.pending = none → s.smb.lastSeq ≠ some w.seq → ∃ t, exec (.smbusPacket op w x) s = .next t ∧ acks t [] ∧
        t.smb = { s.smb with pending := some (op, w), pendDue := s.stamp }) ∧
      (s.smb.pending ≠ none ∨ s.smb.lastSeq = some w.seq → ∃ t, exec (.smbusPacket op w x) s = .next t ∧ acks t [] ∧
        t.smb = s.smb)) ∧
    (heard 0xC1 →
      (s.smb.pending = some (op, w) → ∃ t, exec (.smbusReply x) s = .next t ∧ t.smb = s.smb ∧
        acks t (replyOf 0 w s 0x105 w.handle.toNat [])) ∧
      (s.smb.pending = none → s.smb.reply.length = 32 → ∃ t, exec (.smbusReply x) s = .next t ∧ t.smb = s.smb ∧
        acks t s.smb.reply)) ∧
    (heard 0xC2 → ∃ t, exec (.smbusData x) s = .next t ∧ t.smb = s.smb ∧
      acks t (if s.smb.pending ≠ none ∨ s.smb.data = [] then [0] else s.smb.data)) ∧
    (served → s.smb.pending = some (1, w) → s.ready = false → s.boot.responder = false → FinePacket w → w.handle = 0 →
      ∃ t, exec .smbusPacketAnswered s = .next t ∧ t.smb.pending = none ∧ t.smb.lastSeq = some w.seq ∧
      t.smb.reply = replyOf 1 w s 0 0 [] ∧ t.smb.data = s.identRecord s.boot.state) ∧
    (s.smb.pending = none → exec .smbusPacketAnswered s = .next s)

/-! Start-up, resets, the host die, power and reliability (R490–R547, R551). -/

/-- Power and resets: rising power starts the sequence and counts it; the slot that verifies is loaded, the active one
first, and the UCIe modules have trained, all four in vain being a module fault; READY rises once, when new coefficients are in the
flash (R367), and confirms a running trial, which may raise the version floor; falling power loses what is
volatile; the boot watchdog, three times at most, and the reset key start the sequence again with their cause, and keep the
roll number. -/
def Obligations.PowerAndResets : Prop :=
  (∀ (env : BootEnv) (s : State), ∃ t, exec (.powerUpReset env) s = .next t ∧ Restarted s t ∧
    t.flash.boots = s.flash.boots + 1 ∧ t.boot.env = env ∧ t.boot.straps = env.straps.toNat ∧
    (∀ i x, i < 4 → env.ucie[i]? = some x → Holds t (Reg.hstUcieState i) (if x.st = 0 then 3 else x.st.toNat) ∧
      bit (t.rd Reg.hstIrqPend) 5 = true) ∧
    ((∃ x ∈ env.ucie.take 4, x.st = 1 ∨ x.st = 2) → t.alive = true) ∧
    (env.ucie.length = 4 → (∀ x ∈ env.ucie, x.st = 0 ∨ x.st = 3) → t.alive = false) ∧
    (s.flash.trial = false → s.boot.stage = none →
      let made := fun (b : Bool) => if b then s.flash.madeB else s.flash.madeA
      let env4 := fun (b : Bool) => (if b then env.codeB else env.codeA).toNat
      let svn := fun (b : Bool) => (if b then env.imageB else env.imageA).svn.toNat
      let code := fun (b : Bool) =>
        if made b = false then imageCode (if b then s.flash.slotB else s.flash.slotA) s.flash.svnMin
        else if 1 ≤ env4 b ∧ env4 b ≤ 4 then env4 b
        else if svn b < s.flash.svnMin then 5 else env4 b
      let a := s.flash.active
      t.boot.fw = (if code a = 0 then some a else if code (!a) = 0 then some (!a) else none) ∧
      t.boot.state = (if t.boot.fw = none then 0 else 1))) ∧
  (∀ (ms : Half) (b : Bool) (s : State), s.boot.fw = some b → s.boot.running = true → s.boot.power = true → s.alive = true →
    s.boot.tapStop = false →
    (∀ d c, FlashRec.coeff d c ∈ s.flashq.recs → exec (.readyAssert ms) s = .next s) ∧
    ((∀ d c, FlashRec.coeff d c ∉ s.flashq.recs) → ∃ t, exec (.readyAssert ms) s = .next t ∧ Holds t Reg.keepStatReady 1 ∧
      Holds t Reg.hstStatReady 1 ∧ t.boot.state = 2 ∧ t.boot.running = false ∧ t.mem = s.mem ∧
      (s.fb Reg.secStatTrial = false → t.flash = s.flash) ∧
      (s.fb Reg.secStatTrial = true → let svn := s.boot.image.svn.toNat
        t.flash = { s.flash with
          trial := false
          svnMin := if leAt s.boot.image.head 0xC 4 % 2 = 1 ∧ s.flash.svnMin < svn then min svn 64 else s.flash.svnMin }))) ∧
  (∀ s : State, (∀ ms, s.boot.running = false → exec (.readyAssert ms) s = .next s) ∧
    ∃ t, exec .pwrGoodFall s = .next t ∧ t.boot.power = false ∧ t.alive = false ∧ t.mem = [] ∧ t.towers = [] ∧ t.regs = [] ∧
      t.chans = [] ∧ (s.boot.stage = none → t.flash = s.flash) ∧ t.hostMem = s.hostMem ∧ t.pending = s.pending) ∧
  (∀ s : State, s.boot.power = true → s.boot.trip = false → Tab.sortedFrom 0 s.regs = true →
    (s.boot.running = true → s.f Reg.hstRstCauseWdogRun < 3 → ∃ t, exec .bootWatchdog s = .next t ∧ Restarted s t ∧ t.alive = true ∧
      Holds t Reg.hstRstCauseCause 4 ∧ Holds t Reg.hstRstCauseWdogRun (s.f Reg.hstRstCauseWdogRun + 1) ∧
      t.rd Reg.rollCount = s.rd Reg.rollCount) ∧
    ∀ v : Dword, fld v 15 0 = 0x5A5A → ∃ t, exec (.hstReset v) s = .next t ∧ Restarted s t ∧ t.alive = true ∧ Holds t Reg.hstRstCauseCause 3 ∧
      Holds t Reg.hstRstCauseWdogRun 0 ∧ t.rd Reg.rollCount = s.rd Reg.rollCount) ∧
  ∀ (v : Dword) (s : State), (fld v 15 0 ≠ 0x5A5A → exec (.hstReset v) s = .next s) ∧
    (s.boot.running = false ∨ 3 ≤ s.f Reg.hstRstCauseWdogRun → exec .bootWatchdog s = .next s)

/-- The test access port: EXTEST and CLAMP stop the module, BYPASS and SAMPLE/PRELOAD disturb nothing, IDCODE shifts out the
identification of stepping B0. Once the Keeps have stopped the responder takes over the SMBus target. The attach and
interrupts to the host die: a module of the link that goes DOWN latches its source, and the fourth is a module fault; one that trains again counts, with its retries and its repaired lanes (R532, R558); an end of interrupt sends another message while an enabled source is pending. `MEM_CFG` keeps a
rate out of range. -/
def Obligations.PinsAttachAndResponder : Prop :=
  (∀ s : State,
     (∃ t, exec .tapExtest s = .next t ∧ Halted s t ∧ t.boot = { s.boot with tap := .extest, tapStop := true }) ∧
     (∃ t, exec .tapClamp s = .next t ∧ Halted s t ∧ t.boot = { s.boot with tap := .clamp, tapStop := true }) ∧
     exec .tapBypass s = .next { s with boot := { s.boot with tap := .bypass } } ∧
     exec .tapSamplePreload s = .next { s with boot := { s.boot with tap := .sample } } ∧
     exec .tapIdcode s = .next { s with
       boot := { s.boot with tap := .idcode }
       out := { s.out with tdo := some 0x11536A6D } } ∧
     (s.boot.power = true → s.alive = false → s.boot.tap ≠ .extest → s.boot.responder = false →
       exec .identityResponderTakeover s = .next { s with boot := { s.boot with responder := true, state := 3 }, smb := {} }) ∧
     (s.alive = true → exec .identityResponderTakeover s = .next s)) ∧
  (∀ (n : BitVec 2) (v : Dword) (s : State),
     let i := n.toNat
     let st := s.f (Reg.hstUcieState i)
     let last := ∀ j < 4, j ≠ i → s.f (Reg.hstUcieState j) = 3
     (st = 3 → exec (.ucieModuleDown n) s = .next s) ∧
     (st ≠ 3 → ∃ t, exec (.ucieModuleDown n) s = .next t ∧ Holds t (Reg.hstUcieState i) 3 ∧
       bit (t.rd Reg.hstIrqPend) 5 = true ∧ (last → Halted s t) ∧ (¬ last → t.alive = s.alive ∧ t.chans = s.chans)) ∧
     (∀ z : UcieTraining, let up := z.st = 1 ∨ z.st = 2
       ∃ t, exec (.ucieRetrainRetry n z) s = .next t ∧ Counts s t (Reg.hstUcieRetrains i) 1 ∧
       Counts s t (Reg.hstUcieRetries i) z.retries.toNat ∧
       (up → Holds t (Reg.hstUcieState i) z.st.toNat ∧ Holds t (Reg.hstUcieRepaired i) z.repaired.toNat ∧ t.alive = s.alive) ∧
       (¬ up → Holds t (Reg.hstUcieState i) 3 ∧ (st = 3 ∨ ¬ last → t.alive = s.alive) ∧ (st ≠ 3 → last → Halted s t))) ∧
     (bit v 0 = true → s.irqOn = true → exec (.hstIrqEoi v) s =
       .next { s with irqMsgs := s.irqMsgs ++ [s.f Reg.hstCtrlVector] }) ∧
     (bit v 0 = false ∨ s.irqOn = false → exec (.hstIrqEoi v) s = .next s) ∧
     ∃ t, exec (.memCfg v) s = .next t ∧ t.mem = s.mem ∧ Holds t Reg.memCfgReserveNext (b2n (bit v 0)) ∧
       Holds t Reg.memCfgMigRate (if 16 ≤ fld v 47 32 ∧ fld v 47 32 ≤ 512 then fld v 47 32 else s.f Reg.memCfgMigRate))

/-- The host die: reads of memory return its bytes and writes store them; a hole reads as zeros and takes no write, and an
unreadable granule is an error completion, both marked; with READY low only the `HST_` and `SEC_` blocks answer. A register
is read and written whole or by halves. -/
def Obligations.HostAccess : Prop :=
  ∀ (lpa : BitVec 45) (n : Nat) (bs : List Byte) (s : State), s.boot.power = true → 1 ≤ n → n ≤ 256 → bs.length = n →
    let a := lpa.toNat
    let ends := fun (t : State) (x : HostAns) => t.out = { s.out with host := s.out.host ++ [x] } ∧ t.mem = s.mem
    (s.fb Reg.hstStatReady = false → a < 0x1F0000070000 →
      (∃ t, exec (.hostRead lpa n) s = .next t ∧ ends t (.data (List.replicate n 0)) ∧ Holds t Reg.hstStatNotready 1) ∧
      exec (.hostWrite lpa bs) s = .next (s.setF Reg.hstStatNotready 1)) ∧
    (s.fb Reg.hstStatReady = true →
      (Answers s a n → (∃ t, exec (.hostRead lpa n) s = .next t ∧ ends t (.data (memAt s a n)) ∧ t.regs = s.regs) ∧
        (Memory.wf s.mem = true → Tab.sortedFrom 0 s.bad = true → ∃ t, exec (.hostWrite lpa bs) s = .next t ∧
          Stored s t a bs ∧ t.regs = s.regs)) ∧
      (a % 64 + n ≤ 64 → s.lpaPlace a = .device → s.unreadable a n = true →
        ∃ t, exec (.hostRead lpa n) s = .next t ∧ ends t .error ∧ Holds t Reg.hstStatMemerr 1) ∧
      (a % 64 + n ≤ 64 → s.lpaPlace a = .hole →
        (∃ t, exec (.hostRead lpa n) s = .next t ∧ ends t (.data (List.replicate n 0)) ∧ Holds t Reg.hstStatHole 1) ∧
        exec (.hostWrite lpa bs) s = .next (s.setF Reg.hstStatHole 1)) ∧
      (0x1F0000000000 ≤ a → a < 0x1F010FF00000 → a % 8 = 0 → ∃ t, exec (.hostRead lpa 8) s = .next t ∧
        ends t (.data (leBytes 8 (s.readReg a).toNat)) ∧ t.regs = s.regs) ∧
      ∀ v : Dword, let r : BitVec 45 := BitVec.ofNat 45 Reg.xltInvAddr
        let old := s.rd Reg.xltInvAddr
        let writes := fun (z : RegSize) (x : Nat) => ∃ t, exec (.registerWrite r z v) s = .next t ∧
          Holds t Reg.xltInvAddrAddr x ∧ t.towers = s.towers ∧ ∀ b, b ≠ Reg.xltInvAddr → t.rd b = s.rd b
        writes .full (fld v 47 16) ∧ writes .low (fld old 47 32 * 65536 + fld v 31 16) ∧
        writes .high (fld v 47 32 * 65536 + fld old 31 16))

/-- What the power hardware does between boundaries: a region at 103 °C has its die gated, a sensor at 105 °C trips the
module, a hot device doubles its refresh and above 100 °C limits its die; PWR_ALERT# gates every Tower clock while it lasts;
a droop below the threshold stretches its region, and the stretched tc count. Settings out of range keep their fields and
the rest waits for its boundary. -/
def Obligations.PowerHardware : Prop :=
  ∀ (r : BitVec 5) (d : BitVec 5) (x : Byte) (e : StretchEnd) (v : Dword) (s : State),
    (x.toNat < 103 → exec (.thermalGuard r x) s = .next s) ∧
    (103 ≤ x.toNat → ∃ t, exec (.thermalGuard r x) s = .next t ∧ r.toNat ∈ t.pwr.hot ∧ Holds t Reg.pwrStatGated 1 ∧
      Tab.has t.pwr.gateFrom (r.toNat / 16) = true ∧ t.mem = s.mem ∧ t.towers = s.towers) ∧
    (x.toNat < 105 → exec (.thermTrip x) s = .next s) ∧
    (105 ≤ x.toNat → ∃ t, exec (.thermTrip x) s = .next t ∧ Halted s t ∧ t.boot = { s.boot with trip := true }) ∧
    (24 ≤ d.toNat → exec (.deviceOverheat d x) s = .next s) ∧
    (d.toNat < 24 → ∃ t, exec (.deviceOverheat d x) s = .next t ∧ t = { s with pwr := t.pwr } ∧
      Tab.get 0 t.pwr.devTemp d.toNat = x.toNat ∧ (d.toNat ∈ t.pwr.refresh ↔ 95 < x.toNat) ∧
      t.pwr.limited = s.pwr.limited ∧ (x.toNat ≤ 100 → t.pwr.limitDue = s.pwr.limitDue) ∧
      (100 < x.toNat → d.toNat ∉ s.pwr.limited → Tab.has s.pwr.limitDue d.toNat = false →
        Tab.find t.pwr.limitDue d.toNat = some s.stamp)) ∧
    (∃ t, exec .pwrAlertAssert s = .next t ∧ Holds t Reg.pwrStatAlert 1 ∧ Holds t Reg.pwrStatGated 1 ∧
      t.pwr.alertGate = true ∧ t.mem = s.mem ∧ t.towers = s.towers ∧
      ∀ die < 2, Tab.has t.pwr.gateFrom die = true) ∧
    (∃ t, exec .pwrAlertDeassert s = .next t ∧ Holds t Reg.pwrStatAlert 0 ∧ t.pwr = s.pwr ∧ t.towers = s.towers) ∧
    (let limit := fld s.pwr.droopCfg 7 0
     (x.toNat ≤ limit → exec (.droopStretch r x) s = .next s) ∧
     (limit < x.toNat → ∃ t, exec (.droopStretch r x) s = .next t ∧ Tab.has t.pwr.droop r.toNat = true ∧
       t = { s with pwr := t.pwr })) ∧
    (let low := ∃ m ∈ e.mv, fld s.pwr.droopCfg 7 0 < m.toNat + 10
     (Tab.has s.pwr.droop r.toNat = false ∨ low → exec (.droopStretchEnd r e) s = .next s) ∧
     (∀ start past, Tab.find s.pwr.droop r.toNat = some (start, past) → ¬ low → ∃ t, exec (.droopStretchEnd r e) s = .next t ∧
       t.pwr.droop = Tab.del s.pwr.droop r.toNat ∧ t.mem = s.mem ∧ t.towers = s.towers ∧
       Holds t Reg.pwrDroopCntStretch (s.f Reg.pwrDroopCntStretch + (max 16 e.tcs.toNat - past)))) ∧
    (∃ t, exec (.pwrFill v) s = .next t ∧ t.pwr.fill = s.pwr.fill ∧ t.pwr.fillDue = s.pwr.fillDue ++ [(s.stamp, t.rd Reg.pwrFill)] ∧
      Holds t Reg.pwrFillRampUs (if 1 ≤ fld v 41 32 ∧ fld v 41 32 ≤ 1000 then fld v 41 32 else s.f Reg.pwrFillRampUs) ∧
      Holds t Reg.pwrFillStart (if fld v 6 0 ≤ 64 then fld v 6 0 else s.f Reg.pwrFillStart)) ∧
    ∃ t, exec (.pwrDroopCfg v) s = .next t ∧ t.pwr.droopCfg = s.pwr.droopCfg ∧
      t.pwr.droopDue = s.pwr.droopDue ++ [(s.stamp, t.rd Reg.pwrDroopCfg)] ∧ Holds t Reg.pwrDroopCfgReport (fld v 47 32) ∧
      Holds t Reg.pwrDroopCfgThresh (if 20 ≤ fld v 7 0 ∧ fld v 7 0 ≤ 80 then fld v 7 0 else s.f Reg.pwrDroopCfgThresh)

/-- Reliability: a self-test that ends within a roll waits for the boundary (R156); at one, a Tower whose self-test passes returns to
service and one whose test fails is retired and recorded (R510, R515); a region whose monitors are within their slack keeps its
margins, and one outside it is planned again for the next boundary: at each operating point the least multiple of 5 mV at which every
monitor of its Towers shows 20 ps (R519; that a monitor moves alike at every point is the model's choice, log entry 118); a module fault,
and decisions late at 64 boundaries, stop the module; while it runs, telemetry of the interval that has ended is queued, and event
and flash records are programmed in order (R521–R523), and stopped Keeps program nothing (R517). -/
def Obligations.Reliability : Prop :=
  ∀ (u : TId) (r : TestResult) (g : BitVec 5) (slack short : List Nat) (s : State), let n := u.toNat
    ((s.tw n).run ≠ .testing ∨ (∃ x, (n, x) ∈ s.rel.tests) → exec (.towerSelfTest u r) s = .next s) ∧
    ((s.tw n).run = .testing → (∀ x, (n, x) ∉ s.rel.tests) → s.f Reg.rollPhasePhase ≠ 0 →
      exec (.towerSelfTest u r) s = .next { s with rel := { s.rel with tests := s.rel.tests ++ [(n, r)] } }) ∧
    ((s.tw n).run = .testing → (∀ x, (n, x) ∉ s.rel.tests) → s.f Reg.rollPhasePhase = 0 →
      (∀ v, spareAfter (s.rd (Reg.sprSpare n)) r = some v →
        ∃ t, exec (.towerSelfTest u r) s = .next t ∧ (t.tw n).run = .free ∧ t.rd (Reg.sprSpare n) = v ∧
        Holds t (Reg.twrStatMchk n) 0 ∧ t.mem = s.mem ∧
        (∀ w ∈ r.uncorrected, w < 0xC0000 → Tab.find t.badWords (storeBase n / 8 + w) = some .uncorrectable)) ∧
      (r.failed = true → ∃ t, exec (.towerSelfTest u r) s = .next t ∧ (t.tw n).run = .retired ∧ (t.tw n).step = none ∧
        t.mem = s.mem ∧ Holds t Reg.keepStatTowers (s.f Reg.keepStatTowers - 1) ∧
        FlashRec.retire (partTower n) 1 ∈ t.flashq.recs)) ∧
    (let op := s.f (Reg.pwrRegionOp g.toNat)
     let at' := fun (o : Nat) => g.toNat * 8 + o
     let base := fun (o i : Nat) => ((Tab.get [] s.pwr.base (at' o))[i]?).getD 20
     let seen := fun (i : Nat) => (((slack[i]?).getD 20 : Nat) : Int) - (((short[i]?).getD 0 : Nat) : Int)
     let moved := fun (i : Nat) => seen i - base op i
     let old := fun (o : Nat) => ((Tab.get 0 s.pwr.margins (at' o) : Nat) : Int)
     let slope := fun (o : Nat) => ((Tab.get 0 s.pwr.slope (at' o) : Nat) : Int)
     let shows := fun (o i : Nat) (mv : Int) => 20000 ≤ 1000 * (base o i + moved i) + (mv - old o) * slope o
     ((∀ i < 32, 14 ≤ seen i ∧ -6 ≤ moved i ∧ moved i ≤ 6) → exec (.monitorSample g slack short) s = .next s) ∧
     ((∃ i < 32, seen i < 14 ∨ moved i < -6 ∨ 6 < moved i) → (∀ v ∈ towersIn g.toNat, (s.tw v).run ≠ .retired) →
       (∀ o < 8, 0 < slope o) → (∀ i < 32, shows 0 i 60) →
       ∃ t new fresh slopes, exec (.monitorSample g slack short) s = .next t ∧ t.mem = s.mem ∧ t.pwr.margins = s.pwr.margins ∧
         Tab.find t.pwr.replan g.toNat = some new ∧ new.length = 8 ∧ FlashRec.margins g.toNat new fresh slopes ∈ t.flashq.recs ∧
         ∀ o mv : Nat, new[o]? = some mv → mv % 5 = 0 ∧ (∀ i < 32, shows o i (mv : Int)) ∧ (mv = 0 ∨ ∃ i < 32, ¬ shows o i ((mv : Int) - 5)))) ∧
    (s.roll.overruns < 64 → exec .leaderOverrunWatchdog s = .next s) ∧
    (64 ≤ s.roll.overruns → ∃ t, exec .leaderOverrunWatchdog s = .next t ∧ Halted s t) ∧
    (∃ t, exec .moduleFault s = .next t ∧ Halted s t) ∧
    (s.alive = false ∨ s.rel.teleDone = [] → exec .telemetryRecord s = .next s) ∧
    (∀ d ds, s.alive = true → s.rel.teleDone = d :: ds → ∃ t, exec .telemetryRecord s = .next t ∧ t.rel.teleDone = ds ∧
      t.flashq.events = s.flashq.events ++ [(s.now, 2, 0, d)] ∧ t.mem = s.mem) ∧
    (∀ e es, s.alive = true → s.flashq.events = e :: es → ∃ t, exec .eventRecordProgram s = .next t ∧ t.flashq.events = es ∧
      t.flash.seq = s.flash.seq + 1 ∧ t.mem = s.mem ∧ (t.flash.log.getLast?).map (·.1) = some s.flash.seq) ∧
    (s.alive = false ∨ s.flashq.events = [] → exec .eventRecordProgram s = .next s) ∧
    (∀ q qs, s.alive = true → s.flashq.recs = q :: qs → ∃ t, exec .flashRecordProgram s = .next t ∧ t.flashq.recs = qs ∧
      t.flash = s.flash.put q ∧ t.mem = s.mem) ∧
    (s.alive = false ∨ s.flashq.recs = [] → exec .flashRecordProgram s = .next s)

/-! The machine as a whole. -/

/-- The module at reset: nothing in memory, no channel, step or packet, the registers at their Reset values, no firmware
yet, and the queue of commands empty (the values of fields without a Reset value are the model's, log entries 2 to 5). The
form holds at reset. -/
def Obligations.ResetState : Prop :=
  (let s := State.reset
   s.mem = [] ∧ s.chans = [] ∧ s.steps = [] ∧ s.pending = [] ∧ s.inbox = [] ∧ s.outbox = [] ∧ s.alive = true ∧
   s.f Reg.keepStatReady = 0 ∧ s.f Reg.hstStatReady = 0 ∧ s.now = 0 ∧ s.f Reg.rollPhasePhase = 0 ∧ s.roll.len = 1024 ∧
   s.f Reg.rollStatAligned = 0 ∧ s.f Reg.xltCtrlFqEn = 0 ∧ s.f Reg.keepAdmCtrlEn = 0 ∧
   (∀ a, s.rd a = match regInfo a with | some i => BitVec.ofNat 64 i.reset | none => 0) ∧
   (∀ u : TId, (s.tw u.toNat).run = .free ∧ s.issuing (.tower u) = false ∧ (s.core (.tower u)).estat = 0) ∧
   (∀ d, (s.core (.keep d)).estat = 2)) ∧
  (Safety.canonical State.reset)

/-- Every step keeps both memories in canonical form and the tables that are read by key in rising order. -/
def Obligations.CanonicalFormKept : Prop :=
  ∀ s t : State, Safety.canonical s → step s = .next t → Safety.canonical t

/-- No command changes the queue: a step takes the command at its front and no other. The version floor in the fuses never
falls, and never passes 64 (R544, R547). -/
def Obligations.QueueAndVersionFloor : Prop :=
  (∀ s t : State, step s = .next t → t.pending = s.pending.tail) ∧
  (∀ s t : State, s.flash.svnMin ≤ 64 → step s = .next t → s.flash.svnMin ≤ t.flash.svnMin ∧ t.flash.svnMin ≤ 64)
end

