-- ==== Sys2Proof/Laws/Bits.lean ====
section
/-! SUPPORT. Fields of a doubleword: what a read of a field gives after a write of one, and byte lists. -/

namespace Sys2Proof.Machine

/-- Bit `i` of a field is bit `lo + i` of the doubleword. -/
theorem testBit_fld (w : Dword) (hi lo i : Nat) :
    (fld w hi lo).testBit i = (decide (i < hi + 1 - lo) && w.getLsbD (lo + i)) := by
  simp [fld, Nat.testBit_mod_two_pow, Nat.testBit_div_two_pow, BitVec.getLsbD, Nat.add_comm]

/-- Bits of a doubleword one field of which was written. -/
theorem getLsbD_setFld (w : Dword) (hi lo v j : Nat) (h : hi < 64) (hl : lo ≤ hi) :
    (setFld w hi lo v).getLsbD j = if lo ≤ j ∧ j ≤ hi then v.testBit (j - lo) else w.getLsbD j := by
  by_cases hj : j < 64
  · simp only [setFld, BitVec.getLsbD_or, BitVec.getLsbD_and, BitVec.getLsbD_not, BitVec.getLsbD_ofNat,
      Nat.testBit_mul_two_pow, Nat.testBit_mod_two_pow, Nat.testBit_two_pow_sub_one, hj, decide_true, Bool.true_and]
    by_cases h1 : lo ≤ j
    · by_cases h2 : j ≤ hi
      · have h3 : j - lo < hi + 1 - lo := by omega
        simp [h1, h2, h3]
      · have h3 : ¬ (j - lo < hi + 1 - lo) := by omega
        simp [h1, h2, h3]
    · simp [h1]
  · rw [BitVec.getLsbD_of_ge _ _ (by omega), BitVec.getLsbD_of_ge _ _ (by omega), if_neg (by omega)]

/-- A field reads what was written to it. -/
@[simp] theorem fld_setFld_same (w : Dword) (hi lo v : Nat) (h : hi < 64) (hl : lo ≤ hi) :
    fld (setFld w hi lo v) hi lo = v % 2 ^ (hi + 1 - lo) := by
  apply Nat.eq_of_testBit_eq
  intro i
  rw [testBit_fld, getLsbD_setFld _ _ _ _ _ h hl, Nat.testBit_mod_two_pow]
  by_cases hi' : i < hi + 1 - lo
  · rw [if_pos (by omega), Nat.add_sub_cancel_left]
  · simp [hi']

/-- A field reads as before where another was written. -/
theorem fld_setFld_other (w : Dword) (hi lo hi' lo' v : Nat) (h : hi < 64) (hl : lo ≤ hi)
    (hd : hi' < lo ∨ hi < lo') : fld (setFld w hi lo v) hi' lo' = fld w hi' lo' := by
  apply Nat.eq_of_testBit_eq
  intro i
  rw [testBit_fld, testBit_fld, getLsbD_setFld _ _ _ _ _ h hl]
  by_cases hi'' : i < hi' + 1 - lo'
  · rw [if_neg (by omega)]
  · simp [hi'']

theorem fld_lt (w : Dword) (hi lo : Nat) : fld w hi lo < 2 ^ (hi + 1 - lo) := Nat.mod_lt _ (Nat.two_pow_pos _)

/-- A bit reads what was written to it, and another reads as before. -/
theorem bit_setBit (w : Dword) (i j : Nat) (b : Bool) (h : i < 64) :
    bit (setBit w i b) j = if j = i then b else bit w j := by
  unfold bit setBit
  rw [getLsbD_setFld _ _ _ _ _ h (Nat.le_refl i)]
  by_cases hj : j = i
  · subst hj; cases b <;> simp
  · rw [if_neg (by omega), if_neg hj]

@[simp] theorem leBytes_length (n v : Nat) : (leBytes n v).length = n := by
  induction n generalizing v with
  | zero => rfl
  | succ n ih => simp [leBytes, ih]

/-- A number of `n` bytes is what its bytes hold. -/
theorem leNat_leBytes (n v : Nat) : leNat (leBytes n v) = v % 2 ^ (8 * n) := by
  induction n generalizing v with
  | zero => simp [leBytes, leNat, Nat.mod_one]
  | succ n ih =>
    simp only [leBytes, leNat, ih, BitVec.toNat_ofNat]
    rw [show 8 * (n + 1) = 8 + 8 * n by omega, Nat.pow_add, Nat.mod_mul]

@[simp] theorem overList_nil {α σ : Type} (f : α → σ → σ) (s : σ) : overList [] f s = s := rfl
@[simp] theorem overList_cons {α σ : Type} (a : α) (l : List α) (f : α → σ → σ) (s : σ) :
    overList (a :: l) f s = overList l f (f a s) := rfl

/-- What each round keeps, a repetition keeps. -/
theorem overList_induction {α σ : Type} (P : σ → Prop) (l : List α) (f : α → σ → σ) (s : σ)
    (hs : P s) (hf : ∀ a s, P s → P (f a s)) : P (overList l f s) := by
  induction l generalizing s with
  | nil => exact hs
  | cons a l ih => exact ih _ (hf _ _ hs)

end Sys2Proof.Machine
end

