-- ==== Sys2Proof/Laws/Tab.lean ====
section
/-! SUPPORT. Sparse tables: a read after a write, the canonical form, and ranges. -/

namespace Sys2Proof.Machine

theorem Tab.get_eq_find {α : Type} (d : α) (t : Tab α) (k : Nat) : Tab.get d t k = (Tab.find t k).getD d := by
  induction t with
  | nil => rfl
  | cons e t ih => obtain ⟨j, w⟩ := e; simp only [Tab.get, Tab.find]; split <;> [rfl; (split <;> [rfl; exact ih])]

@[simp] theorem Tab.find_nil {α : Type} (k : Nat) : Tab.find ([] : Tab α) k = none := rfl
@[simp] theorem Tab.get_nil {α : Type} (d : α) (k : Nat) : Tab.get d [] k = d := rfl

/-- A table answers with what was set at the key, and elsewhere as before: `find`. -/
theorem Tab.find_set {α : Type} (t : Tab α) (k j : Nat) (v : α) :
    Tab.find (Tab.set t k v) j = if j = k then some v else Tab.find t j := by
  induction t with
  | nil => simp only [Tab.set, Tab.find]; split <;> simp_all
  | cons e t ih =>
    obtain ⟨i, w⟩ := e
    simp only [Tab.set]
    split
    · subst_vars; simp only [Tab.find]; split <;> simp_all
    · split
      · simp only [Tab.find]; repeat' split
        all_goals first | rfl | omega
      · simp only [Tab.find, ih]; repeat' split
        all_goals first | rfl | omega

@[simp] theorem Tab.find_set_same {α : Type} (t : Tab α) (k : Nat) (v : α) : Tab.find (Tab.set t k v) k = some v := by
  simp [Tab.find_set]

/-- A read after a set: the value set at that key, the old value elsewhere. -/
theorem Tab.get_set {α : Type} (d : α) (t : Tab α) (k j : Nat) (v : α) :
    Tab.get d (Tab.set t k v) j = if j = k then v else Tab.get d t j := by
  simp only [Tab.get_eq_find, Tab.find_set]; split <;> rfl

@[simp] theorem Tab.get_set_same {α : Type} (d : α) (t : Tab α) (k : Nat) (v : α) :
    Tab.get d (Tab.set t k v) k = v := by simp [Tab.get_set]

/-- Setting one key twice keeps the later value only. -/
@[simp] theorem Tab.set_set {α : Type} (t : Tab α) (k : Nat) (v w : α) :
    Tab.set (Tab.set t k v) k w = Tab.set t k w := by
  induction t with
  | nil => simp [Tab.set]
  | cons e t ih =>
    obtain ⟨i, x⟩ := e
    simp only [Tab.set]
    split
    · simp [Tab.set]
    · split
      · simp [Tab.set]
      · simp [Tab.set, *]

theorem Tab.sortedFrom_mono {α : Type} (t : Tab α) (a b : Nat) (h : a ≤ b) (hb : Tab.sortedFrom b t = true) :
    Tab.sortedFrom a t = true := by
  cases t with
  | nil => rfl
  | cons e t => simp only [Tab.sortedFrom, Bool.and_eq_true, decide_eq_true_eq] at hb ⊢; exact ⟨by omega, hb.2⟩

theorem Tab.sortedFrom_set {α : Type} (t : Tab α) (b k : Nat) (v : α) (hk : b ≤ k)
    (h : Tab.sortedFrom b t = true) : Tab.sortedFrom b (Tab.set t k v) = true := by
  induction t generalizing b with
  | nil => simp [Tab.set, Tab.sortedFrom, hk]
  | cons e t ih =>
    obtain ⟨i, x⟩ := e
    simp only [Tab.sortedFrom, Bool.and_eq_true, decide_eq_true_eq] at h
    simp only [Tab.set]
    split
    · subst_vars; simp [Tab.sortedFrom, h]
    · split
      · simp only [Tab.sortedFrom, Bool.and_eq_true, decide_eq_true_eq]; exact ⟨hk, by omega, h.2⟩
      · simp only [Tab.sortedFrom, Bool.and_eq_true, decide_eq_true_eq]
        exact ⟨h.1, ih _ (by omega) h.2⟩

theorem Tab.sortedFrom_del {α : Type} (t : Tab α) (b k : Nat)
    (h : Tab.sortedFrom b t = true) : Tab.sortedFrom b (Tab.del t k) = true := by
  induction t generalizing b with
  | nil => rfl
  | cons e t ih =>
    obtain ⟨i, x⟩ := e
    simp only [Tab.sortedFrom, Bool.and_eq_true, decide_eq_true_eq] at h
    simp only [Tab.del]
    split
    · exact Tab.sortedFrom_mono _ _ _ (by omega) h.2
    · split
      · simp [Tab.sortedFrom, h]
      · simp only [Tab.sortedFrom, Bool.and_eq_true, decide_eq_true_eq]; exact ⟨h.1, ih _ h.2⟩

theorem Tab.mem_set {α : Type} (t : Tab α) (k : Nat) (v : α) (e : Nat × α) (h : e ∈ Tab.set t k v) :
    e = (k, v) ∨ e ∈ t := by
  induction t with
  | nil => simpa [Tab.set] using h
  | cons x t ih =>
    obtain ⟨i, w⟩ := x
    simp only [Tab.set] at h
    split at h
    · simp only [List.mem_cons] at h ⊢; tauto
    · split at h
      · simp only [List.mem_cons] at h ⊢; tauto
      · simp only [List.mem_cons] at h ⊢
        rcases h with h | h
        · tauto
        · rcases ih h with h | h <;> tauto

theorem Tab.mem_del {α : Type} (t : Tab α) (k : Nat) (e : Nat × α) (h : e ∈ Tab.del t k) : e ∈ t := by
  induction t with
  | nil => simpa [Tab.del] using h
  | cons x t ih =>
    obtain ⟨i, w⟩ := x
    simp only [Tab.del] at h
    split at h
    · exact List.mem_cons_of_mem _ h
    · split at h
      · exact h
      · simp only [List.mem_cons] at h ⊢
        rcases h with h | h
        · tauto
        · exact Or.inr (ih h)

/-- A write keeps the canonical form. -/
theorem Tab.wf_put {α : Type} [DecidableEq α] (d : α) (t : Tab α) (k : Nat) (v : α) (h : Tab.wf d t = true) :
    Tab.wf d (Tab.put d t k v) = true := by
  simp only [Tab.wf, Bool.and_eq_true, List.all_eq_true, decide_eq_true_eq] at h ⊢
  unfold Tab.put
  split
  · exact ⟨Tab.sortedFrom_del _ _ _ h.1, fun e he => h.2 e (Tab.mem_del _ _ _ he)⟩
  · refine ⟨Tab.sortedFrom_set _ _ _ _ (Nat.zero_le _) h.1, fun e he => ?_⟩
    rcases Tab.mem_set _ _ _ _ he with rfl | he
    · assumption
    · exact h.2 e he

theorem Tab.wf_putAll {α : Type} [DecidableEq α] (d : α) (vs : List α) (t : Tab α) (k : Nat)
    (h : Tab.wf d t = true) : Tab.wf d (Tab.putAll d t k vs) = true := by
  induction vs generalizing t k with
  | nil => exact h
  | cons v vs ih => exact ih _ _ (Tab.wf_put _ _ _ _ h)

theorem Tab.find_lt {α : Type} (t : Tab α) (b k : Nat) (hk : k < b) (h : Tab.sortedFrom b t = true) :
    Tab.find t k = none := by
  cases t with
  | nil => rfl
  | cons e t =>
    obtain ⟨i, x⟩ := e
    simp only [Tab.sortedFrom, Bool.and_eq_true, decide_eq_true_eq] at h
    simp only [Tab.find]
    have : i ≠ k := by omega
    rw [if_neg (by omega), if_pos (by omega)]

theorem Tab.find_del {α : Type} (t : Tab α) (b k j : Nat) (h : Tab.sortedFrom b t = true) :
    Tab.find (Tab.del t k) j = if j = k then none else Tab.find t j := by
  induction t generalizing b with
  | nil => simp [Tab.del]
  | cons e t ih =>
    obtain ⟨i, x⟩ := e
    simp only [Tab.sortedFrom, Bool.and_eq_true, decide_eq_true_eq] at h
    simp only [Tab.del]
    split
    · subst_vars
      split
      · subst_vars; exact Tab.find_lt _ _ _ (Nat.lt_succ_self _) h.2
      · simp only [Tab.find]; rw [if_neg (by assumption)]
        split
        · exact Tab.find_lt _ _ _ (by omega) h.2
        · rfl
    · split
      · simp only [Tab.find]; repeat' split
        all_goals first | rfl | omega
      · simp only [Tab.find, ih _ h.2]; repeat' split
        all_goals first | rfl | omega

/-- A read after a write of a canonical table: the value written there, the old value elsewhere. -/
theorem Tab.get_put {α : Type} [DecidableEq α] (d : α) (t : Tab α) (k j : Nat) (v : α)
    (h : Tab.wf d t = true) : Tab.get d (Tab.put d t k v) j = if j = k then v else Tab.get d t j := by
  simp only [Tab.wf, Bool.and_eq_true] at h
  unfold Tab.put
  split
  · subst_vars; simp only [Tab.get_eq_find, Tab.find_del _ _ _ _ h.1]; split <;> rfl
  · exact Tab.get_set _ _ _ _ _

/-- Bytes written in a row: the one at its place, and the old value outside them. -/
theorem Tab.get_putAll {α : Type} [DecidableEq α] (d : α) (vs : List α) (t : Tab α) (k j : Nat)
    (h : Tab.wf d t = true) :
    Tab.get d (Tab.putAll d t k vs) j = if k ≤ j ∧ j < k + vs.length then vs.getD (j - k) d else Tab.get d t j := by
  induction vs generalizing t k with
  | nil => simp [Tab.putAll]
  | cons v vs ih =>
    simp only [Tab.putAll]
    rw [ih _ _ (Tab.wf_put _ _ _ _ h), Tab.get_put _ _ _ _ _ h]
    simp only [List.length_cons]
    by_cases h1 : j = k
    · subst h1; simp
    · by_cases h2 : k + 1 ≤ j ∧ j < k + 1 + vs.length
      · rw [if_pos h2, if_pos (by omega)]
        obtain ⟨n, hn⟩ : ∃ n, j - k = n + 1 := ⟨j - k - 1, by omega⟩
        rw [hn, show j - (k + 1) = n by omega]; simp
      · rw [if_neg h2, if_neg h1, if_neg (by omega)]

/-- The same for a table written with `setAll`. -/
theorem Tab.get_setAll {α : Type} (d : α) (vs : List α) (t : Tab α) (k j : Nat) :
    Tab.get d (Tab.setAll t k vs) j = if k ≤ j ∧ j < k + vs.length then vs.getD (j - k) d else Tab.get d t j := by
  induction vs generalizing t k with
  | nil => simp [Tab.setAll]
  | cons v vs ih =>
    simp only [Tab.setAll]
    rw [ih, Tab.get_set]
    simp only [List.length_cons]
    by_cases h1 : j = k
    · subst h1; simp
    · by_cases h2 : k + 1 ≤ j ∧ j < k + 1 + vs.length
      · rw [if_pos h2, if_pos (by omega)]
        obtain ⟨n, hn⟩ : ∃ n, j - k = n + 1 := ⟨j - k - 1, by omega⟩
        rw [hn, show j - (k + 1) = n by omega]; simp
      · rw [if_neg h2, if_neg h1, if_neg (by omega)]

end Sys2Proof.Machine
end

