-- ==== Sys2Proof/Laws/State.lean ====
section
/-! SUPPORT. What each update of the state leaves, field by field, and what each named read gives after each named
write. -/

namespace Sys2Proof.Machine

@[simp] theorem State.setTw_regs (s : State) (t : Nat) (w : Tower) : (s.setTw t w).regs = s.regs := rfl
@[simp] theorem State.setTw_mem (s : State) (t : Nat) (w : Tower) : (s.setTw t w).mem = s.mem := rfl
@[simp] theorem State.setTw_hostMem (s : State) (t : Nat) (w : Tower) : (s.setTw t w).hostMem = s.hostMem := rfl
@[simp] theorem State.setTw_lateWrites (s : State) (t : Nat) (w : Tower) : (s.setTw t w).lateWrites = s.lateWrites := rfl
@[simp] theorem State.setTw_bad (s : State) (t : Nat) (w : Tower) : (s.setTw t w).bad = s.bad := rfl
@[simp] theorem State.setTw_badWords (s : State) (t : Nat) (w : Tower) : (s.setTw t w).badWords = s.badWords := rfl
@[simp] theorem State.setTw_keep0 (s : State) (t : Nat) (w : Tower) : (s.setTw t w).keep0 = s.keep0 := rfl
@[simp] theorem State.setTw_keep1 (s : State) (t : Nat) (w : Tower) : (s.setTw t w).keep1 = s.keep1 := rfl
@[simp] theorem State.setTw_shared (s : State) (t : Nat) (w : Tower) : (s.setTw t w).shared = s.shared := rfl
@[simp] theorem State.setTw_dev (s : State) (t : Nat) (w : Tower) : (s.setTw t w).dev = s.dev := rfl
@[simp] theorem State.setTw_xlt (s : State) (t : Nat) (w : Tower) : (s.setTw t w).xlt = s.xlt := rfl
@[simp] theorem State.setTw_chans (s : State) (t : Nat) (w : Tower) : (s.setTw t w).chans = s.chans := rfl
@[simp] theorem State.setTw_steps (s : State) (t : Nat) (w : Tower) : (s.setTw t w).steps = s.steps := rfl
@[simp] theorem State.setTw_irqMsgs (s : State) (t : Nat) (w : Tower) : (s.setTw t w).irqMsgs = s.irqMsgs := rfl
@[simp] theorem State.setTw_irqLevel (s : State) (t : Nat) (w : Tower) : (s.setTw t w).irqLevel = s.irqLevel := rfl
@[simp] theorem State.setTw_outbox (s : State) (t : Nat) (w : Tower) : (s.setTw t w).outbox = s.outbox := rfl
@[simp] theorem State.setTw_inbox (s : State) (t : Nat) (w : Tower) : (s.setTw t w).inbox = s.inbox := rfl
@[simp] theorem State.setTw_ports (s : State) (t : Nat) (w : Tower) : (s.setTw t w).ports = s.ports := rfl
@[simp] theorem State.setTw_colls (s : State) (t : Nat) (w : Tower) : (s.setTw t w).colls = s.colls := rfl
@[simp] theorem State.setTw_collOut (s : State) (t : Nat) (w : Tower) : (s.setTw t w).collOut = s.collOut := rfl
@[simp] theorem State.setTw_roll (s : State) (t : Nat) (w : Tower) : (s.setTw t w).roll = s.roll := rfl
@[simp] theorem State.setTw_pwr (s : State) (t : Nat) (w : Tower) : (s.setTw t w).pwr = s.pwr := rfl
@[simp] theorem State.setTw_rel (s : State) (t : Nat) (w : Tower) : (s.setTw t w).rel = s.rel := rfl
@[simp] theorem State.setTw_flash (s : State) (t : Nat) (w : Tower) : (s.setTw t w).flash = s.flash := rfl
@[simp] theorem State.setTw_flashq (s : State) (t : Nat) (w : Tower) : (s.setTw t w).flashq = s.flashq := rfl
@[simp] theorem State.setTw_boot (s : State) (t : Nat) (w : Tower) : (s.setTw t w).boot = s.boot := rfl
@[simp] theorem State.setTw_smb (s : State) (t : Nat) (w : Tower) : (s.setTw t w).smb = s.smb := rfl
@[simp] theorem State.setTw_adm (s : State) (t : Nat) (w : Tower) : (s.setTw t w).adm = s.adm := rfl
@[simp] theorem State.setTw_out (s : State) (t : Nat) (w : Tower) : (s.setTw t w).out = s.out := rfl
@[simp] theorem State.setTw_alive (s : State) (t : Nat) (w : Tower) : (s.setTw t w).alive = s.alive := rfl
@[simp] theorem State.setTw_fresh (s : State) (t : Nat) (w : Tower) : (s.setTw t w).fresh = s.fresh := rfl
@[simp] theorem State.setTw_pending (s : State) (t : Nat) (w : Tower) : (s.setTw t w).pending = s.pending := rfl

@[simp] theorem State.wr_mem (s : State) (a : Nat) (v : Dword) : (s.wr a v).mem = s.mem := rfl
@[simp] theorem State.wr_hostMem (s : State) (a : Nat) (v : Dword) : (s.wr a v).hostMem = s.hostMem := rfl
@[simp] theorem State.wr_lateWrites (s : State) (a : Nat) (v : Dword) : (s.wr a v).lateWrites = s.lateWrites := rfl
@[simp] theorem State.wr_bad (s : State) (a : Nat) (v : Dword) : (s.wr a v).bad = s.bad := rfl
@[simp] theorem State.wr_badWords (s : State) (a : Nat) (v : Dword) : (s.wr a v).badWords = s.badWords := rfl
@[simp] theorem State.wr_towers (s : State) (a : Nat) (v : Dword) : (s.wr a v).towers = s.towers := rfl
@[simp] theorem State.wr_keep0 (s : State) (a : Nat) (v : Dword) : (s.wr a v).keep0 = s.keep0 := rfl
@[simp] theorem State.wr_keep1 (s : State) (a : Nat) (v : Dword) : (s.wr a v).keep1 = s.keep1 := rfl
@[simp] theorem State.wr_shared (s : State) (a : Nat) (v : Dword) : (s.wr a v).shared = s.shared := rfl
@[simp] theorem State.wr_dev (s : State) (a : Nat) (v : Dword) : (s.wr a v).dev = s.dev := rfl
@[simp] theorem State.wr_xlt (s : State) (a : Nat) (v : Dword) : (s.wr a v).xlt = s.xlt := rfl
@[simp] theorem State.wr_chans (s : State) (a : Nat) (v : Dword) : (s.wr a v).chans = s.chans := rfl
@[simp] theorem State.wr_steps (s : State) (a : Nat) (v : Dword) : (s.wr a v).steps = s.steps := rfl
@[simp] theorem State.wr_irqMsgs (s : State) (a : Nat) (v : Dword) : (s.wr a v).irqMsgs = s.irqMsgs := rfl
@[simp] theorem State.wr_irqLevel (s : State) (a : Nat) (v : Dword) : (s.wr a v).irqLevel = s.irqLevel := rfl
@[simp] theorem State.wr_outbox (s : State) (a : Nat) (v : Dword) : (s.wr a v).outbox = s.outbox := rfl
@[simp] theorem State.wr_inbox (s : State) (a : Nat) (v : Dword) : (s.wr a v).inbox = s.inbox := rfl
@[simp] theorem State.wr_ports (s : State) (a : Nat) (v : Dword) : (s.wr a v).ports = s.ports := rfl
@[simp] theorem State.wr_colls (s : State) (a : Nat) (v : Dword) : (s.wr a v).colls = s.colls := rfl
@[simp] theorem State.wr_collOut (s : State) (a : Nat) (v : Dword) : (s.wr a v).collOut = s.collOut := rfl
@[simp] theorem State.wr_roll (s : State) (a : Nat) (v : Dword) : (s.wr a v).roll = s.roll := rfl
@[simp] theorem State.wr_pwr (s : State) (a : Nat) (v : Dword) : (s.wr a v).pwr = s.pwr := rfl
@[simp] theorem State.wr_rel (s : State) (a : Nat) (v : Dword) : (s.wr a v).rel = s.rel := rfl
@[simp] theorem State.wr_flash (s : State) (a : Nat) (v : Dword) : (s.wr a v).flash = s.flash := rfl
@[simp] theorem State.wr_flashq (s : State) (a : Nat) (v : Dword) : (s.wr a v).flashq = s.flashq := rfl
@[simp] theorem State.wr_boot (s : State) (a : Nat) (v : Dword) : (s.wr a v).boot = s.boot := rfl
@[simp] theorem State.wr_smb (s : State) (a : Nat) (v : Dword) : (s.wr a v).smb = s.smb := rfl
@[simp] theorem State.wr_adm (s : State) (a : Nat) (v : Dword) : (s.wr a v).adm = s.adm := rfl
@[simp] theorem State.wr_out (s : State) (a : Nat) (v : Dword) : (s.wr a v).out = s.out := rfl
@[simp] theorem State.wr_alive (s : State) (a : Nat) (v : Dword) : (s.wr a v).alive = s.alive := rfl
@[simp] theorem State.wr_fresh (s : State) (a : Nat) (v : Dword) : (s.wr a v).fresh = s.fresh := rfl
@[simp] theorem State.wr_pending (s : State) (a : Nat) (v : Dword) : (s.wr a v).pending = s.pending := rfl

@[simp] theorem State.setF_mem (s : State) (r : RegField) (v : Nat) : (s.setF r v).mem = s.mem := rfl
@[simp] theorem State.setF_hostMem (s : State) (r : RegField) (v : Nat) : (s.setF r v).hostMem = s.hostMem := rfl
@[simp] theorem State.setF_lateWrites (s : State) (r : RegField) (v : Nat) : (s.setF r v).lateWrites = s.lateWrites := rfl
@[simp] theorem State.setF_bad (s : State) (r : RegField) (v : Nat) : (s.setF r v).bad = s.bad := rfl
@[simp] theorem State.setF_badWords (s : State) (r : RegField) (v : Nat) : (s.setF r v).badWords = s.badWords := rfl
@[simp] theorem State.setF_towers (s : State) (r : RegField) (v : Nat) : (s.setF r v).towers = s.towers := rfl
@[simp] theorem State.setF_keep0 (s : State) (r : RegField) (v : Nat) : (s.setF r v).keep0 = s.keep0 := rfl
@[simp] theorem State.setF_keep1 (s : State) (r : RegField) (v : Nat) : (s.setF r v).keep1 = s.keep1 := rfl
@[simp] theorem State.setF_shared (s : State) (r : RegField) (v : Nat) : (s.setF r v).shared = s.shared := rfl
@[simp] theorem State.setF_dev (s : State) (r : RegField) (v : Nat) : (s.setF r v).dev = s.dev := rfl
@[simp] theorem State.setF_xlt (s : State) (r : RegField) (v : Nat) : (s.setF r v).xlt = s.xlt := rfl
@[simp] theorem State.setF_chans (s : State) (r : RegField) (v : Nat) : (s.setF r v).chans = s.chans := rfl
@[simp] theorem State.setF_steps (s : State) (r : RegField) (v : Nat) : (s.setF r v).steps = s.steps := rfl
@[simp] theorem State.setF_irqMsgs (s : State) (r : RegField) (v : Nat) : (s.setF r v).irqMsgs = s.irqMsgs := rfl
@[simp] theorem State.setF_irqLevel (s : State) (r : RegField) (v : Nat) : (s.setF r v).irqLevel = s.irqLevel := rfl
@[simp] theorem State.setF_outbox (s : State) (r : RegField) (v : Nat) : (s.setF r v).outbox = s.outbox := rfl
@[simp] theorem State.setF_inbox (s : State) (r : RegField) (v : Nat) : (s.setF r v).inbox = s.inbox := rfl
@[simp] theorem State.setF_ports (s : State) (r : RegField) (v : Nat) : (s.setF r v).ports = s.ports := rfl
@[simp] theorem State.setF_colls (s : State) (r : RegField) (v : Nat) : (s.setF r v).colls = s.colls := rfl
@[simp] theorem State.setF_collOut (s : State) (r : RegField) (v : Nat) : (s.setF r v).collOut = s.collOut := rfl
@[simp] theorem State.setF_roll (s : State) (r : RegField) (v : Nat) : (s.setF r v).roll = s.roll := rfl
@[simp] theorem State.setF_pwr (s : State) (r : RegField) (v : Nat) : (s.setF r v).pwr = s.pwr := rfl
@[simp] theorem State.setF_rel (s : State) (r : RegField) (v : Nat) : (s.setF r v).rel = s.rel := rfl
@[simp] theorem State.setF_flash (s : State) (r : RegField) (v : Nat) : (s.setF r v).flash = s.flash := rfl
@[simp] theorem State.setF_flashq (s : State) (r : RegField) (v : Nat) : (s.setF r v).flashq = s.flashq := rfl
@[simp] theorem State.setF_boot (s : State) (r : RegField) (v : Nat) : (s.setF r v).boot = s.boot := rfl
@[simp] theorem State.setF_smb (s : State) (r : RegField) (v : Nat) : (s.setF r v).smb = s.smb := rfl
@[simp] theorem State.setF_adm (s : State) (r : RegField) (v : Nat) : (s.setF r v).adm = s.adm := rfl
@[simp] theorem State.setF_out (s : State) (r : RegField) (v : Nat) : (s.setF r v).out = s.out := rfl
@[simp] theorem State.setF_alive (s : State) (r : RegField) (v : Nat) : (s.setF r v).alive = s.alive := rfl
@[simp] theorem State.setF_fresh (s : State) (r : RegField) (v : Nat) : (s.setF r v).fresh = s.fresh := rfl
@[simp] theorem State.setF_pending (s : State) (r : RegField) (v : Nat) : (s.setF r v).pending = s.pending := rfl

@[simp] theorem State.store_regs (s : State) (a : Nat) (bs : List Byte) : (s.store a bs).regs = s.regs := rfl
@[simp] theorem State.store_hostMem (s : State) (a : Nat) (bs : List Byte) : (s.store a bs).hostMem = s.hostMem := rfl
@[simp] theorem State.store_lateWrites (s : State) (a : Nat) (bs : List Byte) : (s.store a bs).lateWrites = s.lateWrites := rfl
@[simp] theorem State.store_bad (s : State) (a : Nat) (bs : List Byte) : (s.store a bs).bad = s.bad := rfl
@[simp] theorem State.store_badWords (s : State) (a : Nat) (bs : List Byte) : (s.store a bs).badWords = s.badWords := rfl
@[simp] theorem State.store_towers (s : State) (a : Nat) (bs : List Byte) : (s.store a bs).towers = s.towers := rfl
@[simp] theorem State.store_keep0 (s : State) (a : Nat) (bs : List Byte) : (s.store a bs).keep0 = s.keep0 := rfl
@[simp] theorem State.store_keep1 (s : State) (a : Nat) (bs : List Byte) : (s.store a bs).keep1 = s.keep1 := rfl
@[simp] theorem State.store_shared (s : State) (a : Nat) (bs : List Byte) : (s.store a bs).shared = s.shared := rfl
@[simp] theorem State.store_dev (s : State) (a : Nat) (bs : List Byte) : (s.store a bs).dev = s.dev := rfl
@[simp] theorem State.store_xlt (s : State) (a : Nat) (bs : List Byte) : (s.store a bs).xlt = s.xlt := rfl
@[simp] theorem State.store_chans (s : State) (a : Nat) (bs : List Byte) : (s.store a bs).chans = s.chans := rfl
@[simp] theorem State.store_steps (s : State) (a : Nat) (bs : List Byte) : (s.store a bs).steps = s.steps := rfl
@[simp] theorem State.store_irqMsgs (s : State) (a : Nat) (bs : List Byte) : (s.store a bs).irqMsgs = s.irqMsgs := rfl
@[simp] theorem State.store_irqLevel (s : State) (a : Nat) (bs : List Byte) : (s.store a bs).irqLevel = s.irqLevel := rfl
@[simp] theorem State.store_outbox (s : State) (a : Nat) (bs : List Byte) : (s.store a bs).outbox = s.outbox := rfl
@[simp] theorem State.store_inbox (s : State) (a : Nat) (bs : List Byte) : (s.store a bs).inbox = s.inbox := rfl
@[simp] theorem State.store_ports (s : State) (a : Nat) (bs : List Byte) : (s.store a bs).ports = s.ports := rfl
@[simp] theorem State.store_colls (s : State) (a : Nat) (bs : List Byte) : (s.store a bs).colls = s.colls := rfl
@[simp] theorem State.store_collOut (s : State) (a : Nat) (bs : List Byte) : (s.store a bs).collOut = s.collOut := rfl
@[simp] theorem State.store_roll (s : State) (a : Nat) (bs : List Byte) : (s.store a bs).roll = s.roll := rfl
@[simp] theorem State.store_pwr (s : State) (a : Nat) (bs : List Byte) : (s.store a bs).pwr = s.pwr := rfl
@[simp] theorem State.store_rel (s : State) (a : Nat) (bs : List Byte) : (s.store a bs).rel = s.rel := rfl
@[simp] theorem State.store_flash (s : State) (a : Nat) (bs : List Byte) : (s.store a bs).flash = s.flash := rfl
@[simp] theorem State.store_flashq (s : State) (a : Nat) (bs : List Byte) : (s.store a bs).flashq = s.flashq := rfl
@[simp] theorem State.store_boot (s : State) (a : Nat) (bs : List Byte) : (s.store a bs).boot = s.boot := rfl
@[simp] theorem State.store_smb (s : State) (a : Nat) (bs : List Byte) : (s.store a bs).smb = s.smb := rfl
@[simp] theorem State.store_adm (s : State) (a : Nat) (bs : List Byte) : (s.store a bs).adm = s.adm := rfl
@[simp] theorem State.store_out (s : State) (a : Nat) (bs : List Byte) : (s.store a bs).out = s.out := rfl
@[simp] theorem State.store_alive (s : State) (a : Nat) (bs : List Byte) : (s.store a bs).alive = s.alive := rfl
@[simp] theorem State.store_fresh (s : State) (a : Nat) (bs : List Byte) : (s.store a bs).fresh = s.fresh := rfl
@[simp] theorem State.store_pending (s : State) (a : Nat) (bs : List Byte) : (s.store a bs).pending = s.pending := rfl

@[simp] theorem State.storeHost_regs (s : State) (a : Nat) (bs : List Byte) : (s.storeHost a bs).regs = s.regs := rfl
@[simp] theorem State.storeHost_mem (s : State) (a : Nat) (bs : List Byte) : (s.storeHost a bs).mem = s.mem := rfl
@[simp] theorem State.storeHost_lateWrites (s : State) (a : Nat) (bs : List Byte) : (s.storeHost a bs).lateWrites = s.lateWrites := rfl
@[simp] theorem State.storeHost_bad (s : State) (a : Nat) (bs : List Byte) : (s.storeHost a bs).bad = s.bad := rfl
@[simp] theorem State.storeHost_badWords (s : State) (a : Nat) (bs : List Byte) : (s.storeHost a bs).badWords = s.badWords := rfl
@[simp] theorem State.storeHost_towers (s : State) (a : Nat) (bs : List Byte) : (s.storeHost a bs).towers = s.towers := rfl
@[simp] theorem State.storeHost_keep0 (s : State) (a : Nat) (bs : List Byte) : (s.storeHost a bs).keep0 = s.keep0 := rfl
@[simp] theorem State.storeHost_keep1 (s : State) (a : Nat) (bs : List Byte) : (s.storeHost a bs).keep1 = s.keep1 := rfl
@[simp] theorem State.storeHost_shared (s : State) (a : Nat) (bs : List Byte) : (s.storeHost a bs).shared = s.shared := rfl
@[simp] theorem State.storeHost_dev (s : State) (a : Nat) (bs : List Byte) : (s.storeHost a bs).dev = s.dev := rfl
@[simp] theorem State.storeHost_xlt (s : State) (a : Nat) (bs : List Byte) : (s.storeHost a bs).xlt = s.xlt := rfl
@[simp] theorem State.storeHost_chans (s : State) (a : Nat) (bs : List Byte) : (s.storeHost a bs).chans = s.chans := rfl
@[simp] theorem State.storeHost_steps (s : State) (a : Nat) (bs : List Byte) : (s.storeHost a bs).steps = s.steps := rfl
@[simp] theorem State.storeHost_irqMsgs (s : State) (a : Nat) (bs : List Byte) : (s.storeHost a bs).irqMsgs = s.irqMsgs := rfl
@[simp] theorem State.storeHost_irqLevel (s : State) (a : Nat) (bs : List Byte) : (s.storeHost a bs).irqLevel = s.irqLevel := rfl
@[simp] theorem State.storeHost_outbox (s : State) (a : Nat) (bs : List Byte) : (s.storeHost a bs).outbox = s.outbox := rfl
@[simp] theorem State.storeHost_inbox (s : State) (a : Nat) (bs : List Byte) : (s.storeHost a bs).inbox = s.inbox := rfl
@[simp] theorem State.storeHost_ports (s : State) (a : Nat) (bs : List Byte) : (s.storeHost a bs).ports = s.ports := rfl
@[simp] theorem State.storeHost_colls (s : State) (a : Nat) (bs : List Byte) : (s.storeHost a bs).colls = s.colls := rfl
@[simp] theorem State.storeHost_collOut (s : State) (a : Nat) (bs : List Byte) : (s.storeHost a bs).collOut = s.collOut := rfl
@[simp] theorem State.storeHost_roll (s : State) (a : Nat) (bs : List Byte) : (s.storeHost a bs).roll = s.roll := rfl
@[simp] theorem State.storeHost_pwr (s : State) (a : Nat) (bs : List Byte) : (s.storeHost a bs).pwr = s.pwr := rfl
@[simp] theorem State.storeHost_rel (s : State) (a : Nat) (bs : List Byte) : (s.storeHost a bs).rel = s.rel := rfl
@[simp] theorem State.storeHost_flash (s : State) (a : Nat) (bs : List Byte) : (s.storeHost a bs).flash = s.flash := rfl
@[simp] theorem State.storeHost_flashq (s : State) (a : Nat) (bs : List Byte) : (s.storeHost a bs).flashq = s.flashq := rfl
@[simp] theorem State.storeHost_boot (s : State) (a : Nat) (bs : List Byte) : (s.storeHost a bs).boot = s.boot := rfl
@[simp] theorem State.storeHost_smb (s : State) (a : Nat) (bs : List Byte) : (s.storeHost a bs).smb = s.smb := rfl
@[simp] theorem State.storeHost_adm (s : State) (a : Nat) (bs : List Byte) : (s.storeHost a bs).adm = s.adm := rfl
@[simp] theorem State.storeHost_out (s : State) (a : Nat) (bs : List Byte) : (s.storeHost a bs).out = s.out := rfl
@[simp] theorem State.storeHost_alive (s : State) (a : Nat) (bs : List Byte) : (s.storeHost a bs).alive = s.alive := rfl
@[simp] theorem State.storeHost_fresh (s : State) (a : Nat) (bs : List Byte) : (s.storeHost a bs).fresh = s.fresh := rfl
@[simp] theorem State.storeHost_pending (s : State) (a : Nat) (bs : List Byte) : (s.storeHost a bs).pending = s.pending := rfl

@[simp] theorem State.modTw_regs (s : State) (t : Nat) (f : Tower → Tower) : (s.modTw t f).regs = s.regs := rfl
@[simp] theorem State.modTw_mem (s : State) (t : Nat) (f : Tower → Tower) : (s.modTw t f).mem = s.mem := rfl
@[simp] theorem State.modTw_hostMem (s : State) (t : Nat) (f : Tower → Tower) : (s.modTw t f).hostMem = s.hostMem := rfl
@[simp] theorem State.modTw_lateWrites (s : State) (t : Nat) (f : Tower → Tower) : (s.modTw t f).lateWrites = s.lateWrites := rfl
@[simp] theorem State.modTw_bad (s : State) (t : Nat) (f : Tower → Tower) : (s.modTw t f).bad = s.bad := rfl
@[simp] theorem State.modTw_badWords (s : State) (t : Nat) (f : Tower → Tower) : (s.modTw t f).badWords = s.badWords := rfl
@[simp] theorem State.modTw_keep0 (s : State) (t : Nat) (f : Tower → Tower) : (s.modTw t f).keep0 = s.keep0 := rfl
@[simp] theorem State.modTw_keep1 (s : State) (t : Nat) (f : Tower → Tower) : (s.modTw t f).keep1 = s.keep1 := rfl
@[simp] theorem State.modTw_shared (s : State) (t : Nat) (f : Tower → Tower) : (s.modTw t f).shared = s.shared := rfl
@[simp] theorem State.modTw_dev (s : State) (t : Nat) (f : Tower → Tower) : (s.modTw t f).dev = s.dev := rfl
@[simp] theorem State.modTw_xlt (s : State) (t : Nat) (f : Tower → Tower) : (s.modTw t f).xlt = s.xlt := rfl
@[simp] theorem State.modTw_chans (s : State) (t : Nat) (f : Tower → Tower) : (s.modTw t f).chans = s.chans := rfl
@[simp] theorem State.modTw_steps (s : State) (t : Nat) (f : Tower → Tower) : (s.modTw t f).steps = s.steps := rfl
@[simp] theorem State.modTw_irqMsgs (s : State) (t : Nat) (f : Tower → Tower) : (s.modTw t f).irqMsgs = s.irqMsgs := rfl
@[simp] theorem State.modTw_irqLevel (s : State) (t : Nat) (f : Tower → Tower) : (s.modTw t f).irqLevel = s.irqLevel := rfl
@[simp] theorem State.modTw_outbox (s : State) (t : Nat) (f : Tower → Tower) : (s.modTw t f).outbox = s.outbox := rfl
@[simp] theorem State.modTw_inbox (s : State) (t : Nat) (f : Tower → Tower) : (s.modTw t f).inbox = s.inbox := rfl
@[simp] theorem State.modTw_ports (s : State) (t : Nat) (f : Tower → Tower) : (s.modTw t f).ports = s.ports := rfl
@[simp] theorem State.modTw_colls (s : State) (t : Nat) (f : Tower → Tower) : (s.modTw t f).colls = s.colls := rfl
@[simp] theorem State.modTw_collOut (s : State) (t : Nat) (f : Tower → Tower) : (s.modTw t f).collOut = s.collOut := rfl
@[simp] theorem State.modTw_roll (s : State) (t : Nat) (f : Tower → Tower) : (s.modTw t f).roll = s.roll := rfl
@[simp] theorem State.modTw_pwr (s : State) (t : Nat) (f : Tower → Tower) : (s.modTw t f).pwr = s.pwr := rfl
@[simp] theorem State.modTw_rel (s : State) (t : Nat) (f : Tower → Tower) : (s.modTw t f).rel = s.rel := rfl
@[simp] theorem State.modTw_flash (s : State) (t : Nat) (f : Tower → Tower) : (s.modTw t f).flash = s.flash := rfl
@[simp] theorem State.modTw_flashq (s : State) (t : Nat) (f : Tower → Tower) : (s.modTw t f).flashq = s.flashq := rfl
@[simp] theorem State.modTw_boot (s : State) (t : Nat) (f : Tower → Tower) : (s.modTw t f).boot = s.boot := rfl
@[simp] theorem State.modTw_smb (s : State) (t : Nat) (f : Tower → Tower) : (s.modTw t f).smb = s.smb := rfl
@[simp] theorem State.modTw_adm (s : State) (t : Nat) (f : Tower → Tower) : (s.modTw t f).adm = s.adm := rfl
@[simp] theorem State.modTw_out (s : State) (t : Nat) (f : Tower → Tower) : (s.modTw t f).out = s.out := rfl
@[simp] theorem State.modTw_alive (s : State) (t : Nat) (f : Tower → Tower) : (s.modTw t f).alive = s.alive := rfl
@[simp] theorem State.modTw_fresh (s : State) (t : Nat) (f : Tower → Tower) : (s.modTw t f).fresh = s.fresh := rfl
@[simp] theorem State.modTw_pending (s : State) (t : Nat) (f : Tower → Tower) : (s.modTw t f).pending = s.pending := rfl

@[simp] theorem State.setCore_regs (s : State) (c : CoreId) (k : Core) : (s.setCore c k).regs = s.regs := by
  cases c with | tower t => rfl | keep d => cases d <;> rfl
@[simp] theorem State.setCore_mem (s : State) (c : CoreId) (k : Core) : (s.setCore c k).mem = s.mem := by
  cases c with | tower t => rfl | keep d => cases d <;> rfl
@[simp] theorem State.setCore_hostMem (s : State) (c : CoreId) (k : Core) : (s.setCore c k).hostMem = s.hostMem := by
  cases c with | tower t => rfl | keep d => cases d <;> rfl
@[simp] theorem State.setCore_lateWrites (s : State) (c : CoreId) (k : Core) : (s.setCore c k).lateWrites = s.lateWrites := by
  cases c with | tower t => rfl | keep d => cases d <;> rfl
@[simp] theorem State.setCore_bad (s : State) (c : CoreId) (k : Core) : (s.setCore c k).bad = s.bad := by
  cases c with | tower t => rfl | keep d => cases d <;> rfl
@[simp] theorem State.setCore_badWords (s : State) (c : CoreId) (k : Core) : (s.setCore c k).badWords = s.badWords := by
  cases c with | tower t => rfl | keep d => cases d <;> rfl
@[simp] theorem State.setCore_shared (s : State) (c : CoreId) (k : Core) : (s.setCore c k).shared = s.shared := by
  cases c with | tower t => rfl | keep d => cases d <;> rfl
@[simp] theorem State.setCore_dev (s : State) (c : CoreId) (k : Core) : (s.setCore c k).dev = s.dev := by
  cases c with | tower t => rfl | keep d => cases d <;> rfl
@[simp] theorem State.setCore_xlt (s : State) (c : CoreId) (k : Core) : (s.setCore c k).xlt = s.xlt := by
  cases c with | tower t => rfl | keep d => cases d <;> rfl
@[simp] theorem State.setCore_chans (s : State) (c : CoreId) (k : Core) : (s.setCore c k).chans = s.chans := by
  cases c with | tower t => rfl | keep d => cases d <;> rfl
@[simp] theorem State.setCore_steps (s : State) (c : CoreId) (k : Core) : (s.setCore c k).steps = s.steps := by
  cases c with | tower t => rfl | keep d => cases d <;> rfl
@[simp] theorem State.setCore_irqMsgs (s : State) (c : CoreId) (k : Core) : (s.setCore c k).irqMsgs = s.irqMsgs := by
  cases c with | tower t => rfl | keep d => cases d <;> rfl
@[simp] theorem State.setCore_irqLevel (s : State) (c : CoreId) (k : Core) : (s.setCore c k).irqLevel = s.irqLevel := by
  cases c with | tower t => rfl | keep d => cases d <;> rfl
@[simp] theorem State.setCore_outbox (s : State) (c : CoreId) (k : Core) : (s.setCore c k).outbox = s.outbox := by
  cases c with | tower t => rfl | keep d => cases d <;> rfl
@[simp] theorem State.setCore_inbox (s : State) (c : CoreId) (k : Core) : (s.setCore c k).inbox = s.inbox := by
  cases c with | tower t => rfl | keep d => cases d <;> rfl
@[simp] theorem State.setCore_ports (s : State) (c : CoreId) (k : Core) : (s.setCore c k).ports = s.ports := by
  cases c with | tower t => rfl | keep d => cases d <;> rfl
@[simp] theorem State.setCore_colls (s : State) (c : CoreId) (k : Core) : (s.setCore c k).colls = s.colls := by
  cases c with | tower t => rfl | keep d => cases d <;> rfl
@[simp] theorem State.setCore_collOut (s : State) (c : CoreId) (k : Core) : (s.setCore c k).collOut = s.collOut := by
  cases c with | tower t => rfl | keep d => cases d <;> rfl
@[simp] theorem State.setCore_roll (s : State) (c : CoreId) (k : Core) : (s.setCore c k).roll = s.roll := by
  cases c with | tower t => rfl | keep d => cases d <;> rfl
@[simp] theorem State.setCore_pwr (s : State) (c : CoreId) (k : Core) : (s.setCore c k).pwr = s.pwr := by
  cases c with | tower t => rfl | keep d => cases d <;> rfl
@[simp] theorem State.setCore_rel (s : State) (c : CoreId) (k : Core) : (s.setCore c k).rel = s.rel := by
  cases c with | tower t => rfl | keep d => cases d <;> rfl
@[simp] theorem State.setCore_flash (s : State) (c : CoreId) (k : Core) : (s.setCore c k).flash = s.flash := by
  cases c with | tower t => rfl | keep d => cases d <;> rfl
@[simp] theorem State.setCore_flashq (s : State) (c : CoreId) (k : Core) : (s.setCore c k).flashq = s.flashq := by
  cases c with | tower t => rfl | keep d => cases d <;> rfl
@[simp] theorem State.setCore_boot (s : State) (c : CoreId) (k : Core) : (s.setCore c k).boot = s.boot := by
  cases c with | tower t => rfl | keep d => cases d <;> rfl
@[simp] theorem State.setCore_smb (s : State) (c : CoreId) (k : Core) : (s.setCore c k).smb = s.smb := by
  cases c with | tower t => rfl | keep d => cases d <;> rfl
@[simp] theorem State.setCore_adm (s : State) (c : CoreId) (k : Core) : (s.setCore c k).adm = s.adm := by
  cases c with | tower t => rfl | keep d => cases d <;> rfl
@[simp] theorem State.setCore_out (s : State) (c : CoreId) (k : Core) : (s.setCore c k).out = s.out := by
  cases c with | tower t => rfl | keep d => cases d <;> rfl
@[simp] theorem State.setCore_alive (s : State) (c : CoreId) (k : Core) : (s.setCore c k).alive = s.alive := by
  cases c with | tower t => rfl | keep d => cases d <;> rfl
@[simp] theorem State.setCore_fresh (s : State) (c : CoreId) (k : Core) : (s.setCore c k).fresh = s.fresh := by
  cases c with | tower t => rfl | keep d => cases d <;> rfl
@[simp] theorem State.setCore_pending (s : State) (c : CoreId) (k : Core) : (s.setCore c k).pending = s.pending := by
  cases c with | tower t => rfl | keep d => cases d <;> rfl

@[simp] theorem State.countInst_mem (s : State) (c : CoreId) : (s.countInst c).mem = s.mem := by
  cases c <;> rfl
@[simp] theorem State.countInst_hostMem (s : State) (c : CoreId) : (s.countInst c).hostMem = s.hostMem := by
  cases c <;> rfl
@[simp] theorem State.countInst_lateWrites (s : State) (c : CoreId) : (s.countInst c).lateWrites = s.lateWrites := by
  cases c <;> rfl
@[simp] theorem State.countInst_bad (s : State) (c : CoreId) : (s.countInst c).bad = s.bad := by
  cases c <;> rfl
@[simp] theorem State.countInst_badWords (s : State) (c : CoreId) : (s.countInst c).badWords = s.badWords := by
  cases c <;> rfl
@[simp] theorem State.countInst_towers (s : State) (c : CoreId) : (s.countInst c).towers = s.towers := by
  cases c <;> rfl
@[simp] theorem State.countInst_keep0 (s : State) (c : CoreId) : (s.countInst c).keep0 = s.keep0 := by
  cases c <;> rfl
@[simp] theorem State.countInst_keep1 (s : State) (c : CoreId) : (s.countInst c).keep1 = s.keep1 := by
  cases c <;> rfl
@[simp] theorem State.countInst_shared (s : State) (c : CoreId) : (s.countInst c).shared = s.shared := by
  cases c <;> rfl
@[simp] theorem State.countInst_dev (s : State) (c : CoreId) : (s.countInst c).dev = s.dev := by
  cases c <;> rfl
@[simp] theorem State.countInst_xlt (s : State) (c : CoreId) : (s.countInst c).xlt = s.xlt := by
  cases c <;> rfl
@[simp] theorem State.countInst_chans (s : State) (c : CoreId) : (s.countInst c).chans = s.chans := by
  cases c <;> rfl
@[simp] theorem State.countInst_steps (s : State) (c : CoreId) : (s.countInst c).steps = s.steps := by
  cases c <;> rfl
@[simp] theorem State.countInst_irqMsgs (s : State) (c : CoreId) : (s.countInst c).irqMsgs = s.irqMsgs := by
  cases c <;> rfl
@[simp] theorem State.countInst_irqLevel (s : State) (c : CoreId) : (s.countInst c).irqLevel = s.irqLevel := by
  cases c <;> rfl
@[simp] theorem State.countInst_outbox (s : State) (c : CoreId) : (s.countInst c).outbox = s.outbox := by
  cases c <;> rfl
@[simp] theorem State.countInst_inbox (s : State) (c : CoreId) : (s.countInst c).inbox = s.inbox := by
  cases c <;> rfl
@[simp] theorem State.countInst_ports (s : State) (c : CoreId) : (s.countInst c).ports = s.ports := by
  cases c <;> rfl
@[simp] theorem State.countInst_colls (s : State) (c : CoreId) : (s.countInst c).colls = s.colls := by
  cases c <;> rfl
@[simp] theorem State.countInst_collOut (s : State) (c : CoreId) : (s.countInst c).collOut = s.collOut := by
  cases c <;> rfl
@[simp] theorem State.countInst_roll (s : State) (c : CoreId) : (s.countInst c).roll = s.roll := by
  cases c <;> rfl
@[simp] theorem State.countInst_pwr (s : State) (c : CoreId) : (s.countInst c).pwr = s.pwr := by
  cases c <;> rfl
@[simp] theorem State.countInst_rel (s : State) (c : CoreId) : (s.countInst c).rel = s.rel := by
  cases c <;> rfl
@[simp] theorem State.countInst_flash (s : State) (c : CoreId) : (s.countInst c).flash = s.flash := by
  cases c <;> rfl
@[simp] theorem State.countInst_flashq (s : State) (c : CoreId) : (s.countInst c).flashq = s.flashq := by
  cases c <;> rfl
@[simp] theorem State.countInst_boot (s : State) (c : CoreId) : (s.countInst c).boot = s.boot := by
  cases c <;> rfl
@[simp] theorem State.countInst_smb (s : State) (c : CoreId) : (s.countInst c).smb = s.smb := by
  cases c <;> rfl
@[simp] theorem State.countInst_adm (s : State) (c : CoreId) : (s.countInst c).adm = s.adm := by
  cases c <;> rfl
@[simp] theorem State.countInst_out (s : State) (c : CoreId) : (s.countInst c).out = s.out := by
  cases c <;> rfl
@[simp] theorem State.countInst_alive (s : State) (c : CoreId) : (s.countInst c).alive = s.alive := by
  cases c <;> rfl
@[simp] theorem State.countInst_fresh (s : State) (c : CoreId) : (s.countInst c).fresh = s.fresh := by
  cases c <;> rfl
@[simp] theorem State.countInst_pending (s : State) (c : CoreId) : (s.countInst c).pending = s.pending := by
  cases c <;> rfl

/-! Towers and cores. -/

/-- A Tower reads as it was set, and every other as before. -/
theorem State.tw_setTw (s : State) (t u : Nat) (w : Tower) :
    (s.setTw t w).tw u = if u = t then w else s.tw u := Tab.get_set _ _ _ _ _
@[simp] theorem State.tw_setTw_same (s : State) (t : Nat) (w : Tower) : (s.setTw t w).tw t = w := by
  simp [State.tw_setTw]
theorem State.tw_modTw (s : State) (t u : Nat) (f : Tower → Tower) :
    (s.modTw t f).tw u = if u = t then f (s.tw t) else s.tw u := Tab.get_set _ _ _ _ _
@[simp] theorem State.tw_modTw_same (s : State) (t : Nat) (f : Tower → Tower) : (s.modTw t f).tw t = f (s.tw t) := by
  simp [State.tw_modTw]
@[simp] theorem State.setTw_setTw (s : State) (t : Nat) (v w : Tower) : (s.setTw t v).setTw t w = s.setTw t w := by
  simp [State.setTw]
@[simp] theorem State.tw_wr (s : State) (a t : Nat) (v : Dword) : (s.wr a v).tw t = s.tw t := rfl
@[simp] theorem State.tw_setF (s : State) (r : RegField) (v t : Nat) : (s.setF r v).tw t = s.tw t := rfl
@[simp] theorem State.tw_store (s : State) (a t : Nat) (bs : List Byte) : (s.store a bs).tw t = s.tw t := rfl

/-- A core reads as it was set. -/
@[simp] theorem State.core_setCore (s : State) (c : CoreId) (k : Core) : (s.setCore c k).core c = k := by
  cases c with
  | tower t => simp [State.setCore, State.core]
  | keep d => cases d <;> rfl
@[simp] theorem State.setCore_setCore (s : State) (c : CoreId) (k l : Core) :
    (s.setCore c k).setCore c l = s.setCore c l := by
  cases c with
  | tower t => simp [State.setCore, State.modTw]
  | keep d => cases d <;> rfl
@[simp] theorem State.core_wr (s : State) (a : Nat) (v : Dword) (c : CoreId) : (s.wr a v).core c = s.core c := by
  cases c with
  | tower t => rfl
  | keep d => cases d <;> rfl
@[simp] theorem State.core_setF (s : State) (r : RegField) (v : Nat) (c : CoreId) : (s.setF r v).core c = s.core c :=
  State.core_wr _ _ _ _
@[simp] theorem State.core_countInst (s : State) (c e : CoreId) : (s.countInst c).core e = s.core e := by
  cases c with
  | tower t => exact State.core_setF _ _ _ _
  | keep d => rfl

/-- A core that retires an instruction holds what the instruction gives it, with the pc moved. -/
@[simp] theorem State.core_retireTo (s : State) (c : CoreId) (k : Core) (pc : Dword) :
    (s.retireTo c k pc).core c = { k with pc := pc, wait := .none } := by
  simp [State.retireTo]
@[simp] theorem State.core_retire (s : State) (c : CoreId) (k : Core) :
    (s.retire c k).core c = { k with pc := k.pc + 4, wait := .none } := by
  simp [State.retire]

/-- Retirement, said once: nothing but the core and a Tower's count of completed instructions changes (R336). -/
theorem State.retireTo_eq (s : State) (c : CoreId) (k : Core) (pc : Dword) :
    s.retireTo c k pc = (s.setCore c ((s.retireTo c k pc).core c)).countInst c := by
  rw [State.core_retireTo]; rfl

/-! Registers of a core. -/

@[simp] theorem Core.getG_zero (k : Core) : k.getG 0 = 0 := rfl
theorem Core.getG_setG (k : Core) (d r : GReg) (v : Dword) :
    (k.setG d v).getG r = if r = d ∧ r ≠ 0 then v else k.getG r := by
  unfold Core.getG Core.setG
  by_cases hr : r = 0
  · rw [if_pos hr, if_pos hr, if_neg (fun h => h.2 hr)]
  · rw [if_neg hr, if_neg hr]
    by_cases h : r = d
    · subst h; rw [if_neg hr, if_pos ⟨rfl, hr⟩]; exact Tab.get_set_same _ _ _ _
    · rw [if_neg (fun e : r = d ∧ r ≠ 0 => h e.1)]
      have : r.toNat ≠ d.toNat := fun e => h (BitVec.eq_of_toNat_eq e)
      by_cases hd : d = 0
      · rw [if_pos hd]
      · rw [if_neg hd]; exact (Tab.get_set _ _ _ _ _).trans (if_neg this)
theorem Core.getQ_setQ (k : Core) (d r : GReg) (v : Qword) :
    (k.setQ d v).getQ r = if r = d then v else k.getQ r := by
  unfold Core.getQ Core.setQ
  by_cases h : r = d
  · subst h; simp
  · have : r.toNat ≠ d.toNat := fun e => h (BitVec.eq_of_toNat_eq e)
    simp [h, Tab.get_set, this]
theorem Core.getS_setS (k : Core) (d r : R3) (v : Seg) :
    (k.setS d v).getS r = if r = d then v else k.getS r := by
  unfold Core.getS Core.setS
  by_cases h : r = d
  · subst h; simp
  · have : r.toNat ≠ d.toNat := fun e => h (BitVec.eq_of_toNat_eq e)
    simp [h, Tab.get_set, this]
/-- A write of a g register changes the g registers only. -/
theorem Core.setG_eq (k : Core) (d : GReg) (v : Dword) : k.setG d v = { k with g := (k.setG d v).g } := by
  unfold Core.setG; split <;> rfl
@[simp] theorem Core.setG_pc (k : Core) (d : GReg) (v : Dword) : (k.setG d v).pc = k.pc := by
  rw [Core.setG_eq]
@[simp] theorem Core.setG_flags (k : Core) (d : GReg) (v : Dword) : (k.setG d v).flags = k.flags := by
  rw [Core.setG_eq]
@[simp] theorem Core.setG_fpcsr (k : Core) (d : GReg) (v : Dword) : (k.setG d v).fpcsr = k.fpcsr := by
  rw [Core.setG_eq]
@[simp] theorem Core.setQ_pc (k : Core) (d : GReg) (v : Qword) : (k.setQ d v).pc = k.pc := rfl
@[simp] theorem Core.setF_pc (k : Core) (d : GReg) (v : Dword) : (k.setF d v).pc = k.pc := rfl

/-! Control registers. -/

/-- A register reads what was written, and every other as before. -/
theorem State.rd_wr (s : State) (a b : Nat) (v : Dword) : (s.wr a v).rd b = if b = a then v else s.rd b := by
  simp only [State.rd, State.wr, Tab.find_set]; split <;> simp_all
@[simp] theorem State.rd_wr_same (s : State) (a : Nat) (v : Dword) : (s.wr a v).rd a = v := by simp [State.rd_wr]
@[simp] theorem State.wr_wr (s : State) (a : Nat) (v w : Dword) : (s.wr a v).wr a w = s.wr a w := by
  simp [State.wr]
@[simp] theorem State.rd_setTw (s : State) (t a : Nat) (w : Tower) : (s.setTw t w).rd a = s.rd a := rfl
@[simp] theorem State.rd_modTw (s : State) (t a : Nat) (f : Tower → Tower) : (s.modTw t f).rd a = s.rd a := rfl
@[simp] theorem State.rd_store (s : State) (p a : Nat) (bs : List Byte) : (s.store p bs).rd a = s.rd a := rfl
@[simp] theorem State.rd_setCore (s : State) (c : CoreId) (k : Core) (a : Nat) : (s.setCore c k).rd a = s.rd a := by
  simp [State.rd]
/-- A field reads what was written to it. -/
theorem State.f_setF_same (s : State) (r : RegField) (v : Nat) (h : r.hi < 64) (hl : r.lo ≤ r.hi) :
    (s.setF r v).f r = v % 2 ^ (r.hi + 1 - r.lo) := by
  simp [State.f, State.setF, fld_setFld_same _ _ _ _ h hl]
/-- A field reads as before where a field of another register was written. -/
theorem State.f_setF_other (s : State) (r q : RegField) (v : Nat) (h : q.addr ≠ r.addr) :
    (s.setF r v).f q = s.f q := by
  simp [State.f, State.setF, State.rd_wr, h]

/-! Memory. -/

/-- A write of device or Tower-store memory keeps the canonical form. -/
theorem State.store_wf (s : State) (a : Nat) (bs : List Byte) (h : Memory.wf s.mem = true) :
    Memory.wf (s.store a bs).mem = true := Tab.wf_putAll _ _ _ _ h
/-- A write of host-die memory keeps the canonical form. -/
theorem State.storeHost_wf (s : State) (a : Nat) (bs : List Byte) (h : Memory.wf s.hostMem = true) :
    Memory.wf (s.storeHost a bs).hostMem = true := Tab.wf_putAll _ _ _ _ h

/-! A command on a core. -/

/-- On a core that issues, a scalar command is its meaning. -/
theorem onCore_of_issuing (c : CoreId) (s : State) (f : State → Out) (h : s.issuing c = true) : onCore c s f = f s := by
  simp [onCore, h]
/-- On a core that does not issue it changes nothing (log entry 9). -/
theorem onCore_of_not_issuing (c : CoreId) (s : State) (f : State → Out) (h : s.issuing c = false) :
    onCore c s f = .next s := by
  simp [onCore, h]

end Sys2Proof.Machine
end

