-- ==== Sys2Proof/Laws/Ops.lean ====
section
/-! SUPPORT. One lemma for each shared operation that says all it can do to memory, to the registers and to a core; every
memory operation keeps both memories in canonical form. -/

namespace Sys2Proof.Machine

/-! Records, counts, free values and interrupt messages leave both memories. -/

@[simp] theorem State.incF_mem (s : State) (r : RegField) (n : Nat) : (s.incF r n).mem = s.mem := rfl
@[simp] theorem State.incF_hostMem (s : State) (r : RegField) (n : Nat) : (s.incF r n).hostMem = s.hostMem := rfl
@[simp] theorem State.satF_mem (s : State) (r : RegField) (n : Nat) : (s.satF r n).mem = s.mem := rfl
@[simp] theorem State.satF_hostMem (s : State) (r : RegField) (n : Nat) : (s.satF r n).hostMem = s.hostMem := rfl
@[simp] theorem State.satF_towers (s : State) (r : RegField) (n : Nat) : (s.satF r n).towers = s.towers := rfl
@[simp] theorem State.free_mem (s : State) : s.free.2.mem = s.mem := rfl
@[simp] theorem State.free_hostMem (s : State) : s.free.2.hostMem = s.hostMem := rfl
@[simp] theorem State.free_towers (s : State) : s.free.2.towers = s.towers := rfl
@[simp] theorem State.free_regs (s : State) : s.free.2.regs = s.regs := rfl
@[simp] theorem State.flashPut_mem (s : State) (r : FlashRec) : (s.flashPut r).mem = s.mem := rfl
@[simp] theorem State.flashPut_hostMem (s : State) (r : FlashRec) : (s.flashPut r).hostMem = s.hostMem := rfl

@[simp] theorem State.event_mem (s : State) (type part : Nat) (d : List Byte) : (s.event type part d).mem = s.mem := by
  simp only [State.event]; split <;> rfl
@[simp] theorem State.event_hostMem (s : State) (type part : Nat) (d : List Byte) :
    (s.event type part d).hostMem = s.hostMem := by simp only [State.event]; split <;> rfl
@[simp] theorem State.uncorrected_mem (s : State) (a b c t : Nat) : (s.uncorrected a b c t).mem = s.mem := by
  simp [State.uncorrected]
@[simp] theorem State.uncorrected_hostMem (s : State) (a b c t : Nat) : (s.uncorrected a b c t).hostMem = s.hostMem := by
  simp [State.uncorrected]
@[simp] theorem State.ueMet_mem (s : State) (t a : Nat) : (s.ueMet t a).mem = s.mem := by
  simp only [State.ueMet]; split <;> [(split <;> simp); simp]
@[simp] theorem State.ueMet_hostMem (s : State) (t a : Nat) : (s.ueMet t a).hostMem = s.hostMem := by
  simp only [State.ueMet]; split <;> [(split <;> simp); simp]
@[simp] theorem State.irqSync_mem (s : State) : s.irqSync.mem = s.mem := by simp only [State.irqSync]; split <;> rfl
@[simp] theorem State.irqSync_hostMem (s : State) : s.irqSync.hostMem = s.hostMem := by
  simp only [State.irqSync]; split <;> rfl
@[simp] theorem State.irqSync_towers (s : State) : s.irqSync.towers = s.towers := by
  simp only [State.irqSync]; split <;> rfl
@[simp] theorem State.irqSync_regs (s : State) : s.irqSync.regs = s.regs := by
  simp only [State.irqSync]; split <;> rfl

/-! Ends of a step leave both memories. -/

/-- What stops Towers leaves everything but the Towers. -/
theorem State.stopTowers_frame (s : State) (ts : List Nat) :
    (s.stopTowers ts).mem = s.mem ∧ (s.stopTowers ts).hostMem = s.hostMem ∧ (s.stopTowers ts).regs = s.regs ∧
      (s.stopTowers ts).steps = s.steps :=
  overList_induction (fun t => t.mem = s.mem ∧ t.hostMem = s.hostMem ∧ t.regs = s.regs ∧ t.steps = s.steps) ts _ s
    ⟨rfl, rfl, rfl, rfl⟩ (fun _ _ h => by simpa using h)

@[simp] theorem State.stopTowers_mem (s : State) (ts : List Nat) : (s.stopTowers ts).mem = s.mem :=
  (s.stopTowers_frame ts).1
@[simp] theorem State.stopTowers_hostMem (s : State) (ts : List Nat) : (s.stopTowers ts).hostMem = s.hostMem :=
  (s.stopTowers_frame ts).2.1
@[simp] theorem State.stopTowers_regs (s : State) (ts : List Nat) : (s.stopTowers ts).regs = s.regs :=
  (s.stopTowers_frame ts).2.2.1
@[simp] theorem State.stopTowers_steps (s : State) (ts : List Nat) : (s.stopTowers ts).steps = s.steps :=
  (s.stopTowers_frame ts).2.2.2

@[simp] theorem State.programError_mem (s : State) (t : Nat) : (s.programError t).mem = s.mem := by
  simp only [State.programError]; split <;> simp
@[simp] theorem State.programError_hostMem (s : State) (t : Nat) : (s.programError t).hostMem = s.hostMem := by
  simp only [State.programError]; split <;> simp
@[simp] theorem State.programError_regs (s : State) (t : Nat) : (s.programError t).regs = s.regs := by
  simp only [State.programError]; split <;> simp
@[simp] theorem State.strikeStep_mem (s : State) (k : Nat) : (s.strikeStep k).mem = s.mem := by
  simp only [State.strikeStep]; split <;> simp
@[simp] theorem State.strikeStep_hostMem (s : State) (k : Nat) : (s.strikeStep k).hostMem = s.hostMem := by
  simp only [State.strikeStep]; split <;> simp
@[simp] theorem State.strikeStep_regs (s : State) (k : Nat) : (s.strikeStep k).regs = s.regs := by
  simp only [State.strikeStep]; split <;> simp
@[simp] theorem State.strike_mem (s : State) (t : Nat) : (s.strike t).mem = s.mem := by
  simp only [State.strike]; split <;> simp
@[simp] theorem State.strike_hostMem (s : State) (t : Nat) : (s.strike t).hostMem = s.hostMem := by
  simp only [State.strike]; split <;> simp
@[simp] theorem State.strike_regs (s : State) (t : Nat) : (s.strike t).regs = s.regs := by
  simp only [State.strike]; split <;> simp
@[simp] theorem State.engineError_mem (s : State) (t src : Nat) : (s.engineError t src).mem = s.mem := by
  simp only [State.engineError]; split <;> simp
@[simp] theorem State.haltModule_mem (s : State) : s.haltModule.mem = s.mem := by simp [State.haltModule]
@[simp] theorem State.haltModule_hostMem (s : State) : s.haltModule.hostMem = s.hostMem := by simp [State.haltModule]

/-! The program error of a step: its Towers run no more, and the step knows it. -/

/-- A program error of a Tower's step marks that step, and no other. -/
theorem State.programError_steps (s : State) (t k : Nat) (st : StepSt) (h : s.stepOf t = some (k, st)) (j : Nat) :
    Tab.find (s.programError t).steps j = if j = k then some { st with progErr := true } else Tab.find s.steps j := by
  simp [State.programError, h, Tab.find_set]

/-! Every memory operation keeps the canonical form (R360, R506). -/

/-- Both memories are in canonical form. -/
theorem State.wf_of_eq (s t : State) (h : Memory.wf s.mem = true ∧ Memory.wf s.hostMem = true)
    (hm : t.mem = s.mem) (hh : t.hostMem = s.hostMem) : Memory.wf t.mem = true ∧ Memory.wf t.hostMem = true := by
  rw [hm, hh]; exact h

/-- One granule's write: it discards the bytes with an error response, or stores them; the window's memory stays. -/
theorem State.writePiece_cases (s : State) (t a : Nat) (bs : List Byte) :
    ((s.writePiece t a bs).1 = true ∧ (s.writePiece t a bs).2.mem = s.mem ∨
      (s.writePiece t a bs).1 = false ∧ (s.writePiece t a bs).2.mem = (s.store a bs).mem) ∧
    (s.writePiece t a bs).2.hostMem = s.hostMem := by
  simp only [State.writePiece]
  split
  · split
    · simp
    · split <;> simp
  · simp

theorem State.writePiece_wf (s : State) (t a : Nat) (bs : List Byte)
    (h : Memory.wf s.mem = true ∧ Memory.wf s.hostMem = true) :
    Memory.wf (s.writePiece t a bs).2.mem = true ∧ Memory.wf (s.writePiece t a bs).2.hostMem = true := by
  obtain ⟨hm, hh⟩ := s.writePiece_cases t a bs
  refine ⟨?_, hh ▸ h.2⟩
  rcases hm with ⟨-, hm⟩ | ⟨-, hm⟩
  · exact hm ▸ h.1
  · exact hm ▸ s.store_wf a bs h.1

/-- What a fold keeps at each element it keeps. -/
theorem foldl_keeps {α σ : Type} (P : σ → Prop) (f : σ → α → σ) (hf : ∀ x a, P x → P (f x a)) (l : List α) (x : σ) (h : P x) :
    P (l.foldl f x) := by
  induction l generalizing x with
  | nil => exact h
  | cons a l ih => exact ih _ (hf _ _ h)

theorem State.writeMem_wf (s : State) (t a : Nat) (bs : List Byte)
    (h : Memory.wf s.mem = true ∧ Memory.wf s.hostMem = true) :
    Memory.wf (s.writeMem t a bs).2.mem = true ∧ Memory.wf (s.writeMem t a bs).2.hostMem = true :=
  foldl_keeps (fun x : Bool × State => Memory.wf x.2.mem = true ∧ Memory.wf x.2.hostMem = true) _
    (fun x p hx => x.2.writePiece_wf t p.1 _ hx) _ _ h

/-- Abandoned writes that land, or wait on, keep it (R352). -/
theorem State.landLate_wf (s : State) (h : Memory.wf s.mem = true ∧ Memory.wf s.hostMem = true) :
    Memory.wf s.landLate.mem = true ∧ Memory.wf s.landLate.hostMem = true := by
  refine foldl_keeps (fun x : State => Memory.wf x.mem = true ∧ Memory.wf x.hostMem = true) _ (fun x w hx => ?_) _ _ h
  dsimp only
  split
  · exact ⟨hx.1, State.storeHost_wf _ _ _ hx.2⟩
  · exact hx

/-- A read leaves both memories as they are. -/
theorem State.readMem_frame (s : State) (t a n : Nat) :
    (s.readMem t a n).2.2.mem = s.mem ∧ (s.readMem t a n).2.2.hostMem = s.hostMem := by
  simp only [State.readMem]
  split
  · exact ⟨rfl, rfl⟩
  · simp only [State.satF_mem, State.satF_hostMem]
    exact overList_induction (fun x => x.mem = s.mem ∧ x.hostMem = s.hostMem) _ (fun (p : Nat × Nat) (s : State) => s.ueMet t p.1) s ⟨rfl, rfl⟩
      (fun _ _ h => by simpa using h)

theorem State.keepRead_wf (s : State) (a n : Nat) (h : Memory.wf s.mem = true ∧ Memory.wf s.hostMem = true) :
    Memory.wf (s.keepRead a n).2.mem = true ∧ Memory.wf (s.keepRead a n).2.hostMem = true := by
  simp only [State.keepRead]
  split
  · exact s.landLate_wf h
  · refine foldl_keeps (fun x : Option (List Byte) × State => Memory.wf x.2.mem = true ∧ Memory.wf x.2.hostMem = true) _
      (fun x p hx => ?_) _ _ h
    split
    · exact hx
    · exact State.wf_of_eq _ _ hx (State.readMem_frame ..).1 (State.readMem_frame ..).2

theorem State.keepWrite_wf (s : State) (a : Nat) (bs : List Byte) (r : Resp)
    (h : Memory.wf s.mem = true ∧ Memory.wf s.hostMem = true) :
    Memory.wf (s.keepWrite a bs r).2.mem = true ∧ Memory.wf (s.keepWrite a bs r).2.hostMem = true := by
  simp only [State.keepWrite]
  split
  · split
    · exact ⟨h.1, s.storeHost_wf _ _ h.2⟩
    · exact h
    · exact State.landLate_wf _ h
  · refine foldl_keeps (fun x : Bool × State => Memory.wf x.2.mem = true ∧ Memory.wf x.2.hostMem = true) _
      (fun x p hx => ?_) _ _ h
    split
    · exact hx
    · exact x.2.writePiece_wf _ _ _ hx

/-- The bytes read after a write: those written at their places, and the old ones elsewhere. -/
theorem State.load_store (s : State) (a : Nat) (bs : List Byte) (h : Memory.wf s.mem = true) (b n : Nat) :
    (s.store a bs).load b n
      = (range b n).map (fun j => if a ≤ j ∧ j < a + bs.length then bs.getD (j - a) 0 else Tab.get 0 s.mem j) := by
  simp only [State.load, State.store, Tab.getAll]
  exact List.map_congr_left (fun j _ => Tab.get_putAll 0 bs s.mem a j h)

/-! A command on a core: it runs, or changes nothing. -/

theorem onCoreAt_of_issuing (c : CoreId) (w : Word) (s : State) (f : State → Out) (h : s.issuing c = true) :
    onCoreAt c w s f = f s := by
  simp [onCoreAt, State.issuingAt, h]

/-- A core that issues is one that executes, waits at nothing and has no exception to take. -/
theorem State.issuing_iff (s : State) (c : CoreId) :
    s.issuing c = true ↔ s.executes c = true ∧ (s.core c).wait = .none ∧ (s.core c).engDue = false := by
  simp [State.issuing, and_assoc]

/-- All a core's own exception can do (R296, R298): entry, the end of the step as a program error, or a Keep's stop. -/
theorem State.except_cases (s : State) (c : CoreId) (cause sub : Nat) (a e : Dword) :
    ((s.core c).vectorsOn = true ∧ (s.core c).handlerRuns = false ∧
      s.except c cause sub a e = .next (s.setCore c ((s.core c).enter 0 sub cause a e))) ∨
    (((s.core c).vectorsOn = false ∨ (s.core c).handlerRuns = true) ∧
      ((∃ t, c = .tower t ∧ s.except c cause sub a e = .next (s.programError t.toNat)) ∨
        ∃ d, c = .keep d ∧ s.except c cause sub a e = .fault .keepException)) := by
  cases hv : (s.core c).vectorsOn <;> cases hh : (s.core c).handlerRuns <;> cases c <;> simp [State.except, hv, hh]

/-- Whatever an exception does, it leaves both memories. -/
theorem State.except_mem (s t : State) (c : CoreId) (cause sub : Nat) (a e : Dword)
    (h : s.except c cause sub a e = .next t) : t.mem = s.mem ∧ t.hostMem = s.hostMem := by
  rcases s.except_cases c cause sub a e with ⟨-, -, h'⟩ | ⟨-, ⟨u, -, h'⟩ | ⟨d, -, h'⟩⟩ <;> rw [h'] at h <;> cases h <;> simp

/-- An instruction that completes leaves the core it is given, at its pc, and counts. -/
theorem State.retireTo_frame (s : State) (c : CoreId) (k : Core) (pc : Dword) :
    (s.retireTo c k pc).core c = { k with pc := pc, wait := .none } ∧ (s.retireTo c k pc).mem = s.mem ∧
      (s.retireTo c k pc).hostMem = s.hostMem := by
  refine ⟨?_, by simp [State.retireTo], by simp [State.retireTo]⟩
  simp [State.retireTo]

/-- A core that waits changes in nothing else. -/
theorem State.stall_frame (s : State) (c : CoreId) (w : Wait) (at' : Word) :
    (s.stall c w at').core c = { s.core c with wait := w, waitAt := at' } ∧ (s.stall c w at').mem = s.mem ∧
      (s.stall c w at').regs = s.regs := by
  simp [State.stall, State.modCore]

end Sys2Proof.Machine
end

