-- ==== Sys2Proof/Tests/Slice0.lean ====
section
/-! SUPPORT. Own tests: each check of WellFormed refuses an ill-formed command; words of Nanona instructions written out
bit by bit from the encoding tables (R264, R301) stand for the instructions they name; single steps on small states, with
results computed by hand from the rules; and for each statement with hypotheses a state and operands that meet them. -/

namespace Sys2Proof.Tests
open Sys2Proof.Machine Sys2Proof.Says
set_option maxRecDepth 16384
set_option exponentiation.threshold 512

/-! WellFormed: one ill-formed command for each check. -/

def aPacket : Packet where
  type := 3
  vc := 2
  detour := 0
  pin := false
  dest := 0x101
  src := 0x001
  tower := 5
  tag := 4
  off := 0
  len := 63
  lpa := 0x100040
  arg := 0
  data := List.replicate 64 7
def aFrame : Frame := { head := 0, slots := List.replicate 15 0, pad := 0, crc := 0, fecOk := true }
def aSample : Sample where
  temps := List.replicate 32 45
  energy := 200
  power := 300
  inlet := 30
  outlet := 41
  late := false
  directed := true
  reported := true
  followerFault := false
  bridgeFault := false
  cqAnswers := []
  admAnswers := []
  smpAnswers := []
  phy := List.replicate 8 50
  memTemps := List.replicate 24 60
  hostPower := 90
def anEnv : BootEnv where
  straps := 2
  codeA := 0
  codeB := 3
  imageA := ⟨7, 0x10002, List.replicate 2560 0⟩
  imageB := ⟨6, 0x10001, List.replicate 2560 0⟩
  devFail := [4]
  trainMs := 60
  devIdent := List.replicate 24 9
  devCoeff := List.replicate 24 9
  coeffBad := []
  towerTests := []
  followerFail := false
  plan := List.replicate 32 ⟨List.replicate 4 (List.replicate 8 (List.replicate 8 30)), List.replicate 8 1000⟩
  ucie := [⟨1, 0, 0⟩, ⟨2, 1, 3⟩, ⟨1, 0, 0⟩, ⟨0, 0, 0⟩]

theorem test_wf_good : wellFormed (.rollBoundary aSample) = true ∧ wellFormed (.powerUpReset anEnv) = true ∧
    wellFormed (.read aPacket) = true ∧ wellFormed (.linkFrame 17 aFrame) = true := by decide
theorem test_wf_temps : wellFormed (.rollBoundary { aSample with temps := [45] }) = false := by decide
theorem test_wf_channel : wellFormed (.rollBoundary { aSample with cqAnswers := [((16384, 0), .hostErr)] }) = false := by decide
theorem test_wf_tower : wellFormed (.rollBoundary { aSample with smpAnswers := [(128, .timeout)] }) = false := by decide
theorem test_wf_phy : wellFormed (.rollBoundary { aSample with phy := [] }) = false := by decide
theorem test_wf_memory_temps : wellFormed (.rollBoundary { aSample with memTemps := [60] }) = false := by decide
theorem test_wf_slope : wellFormed (.powerUpReset { anEnv with plan := List.replicate 32 ⟨List.replicate 4 [], List.replicate 8 0⟩ })
    = false := by decide
theorem test_wf_ucie : wellFormed (.powerUpReset { anEnv with ucie := [] }) = false := by decide
theorem test_wf_head : wellFormed (.powerUpReset { anEnv with imageA := ⟨0, 0, []⟩ }) = false := by decide
theorem test_wf_detectors : wellFormed (.droopStretchEnd 0 ⟨20, []⟩) = false := by decide
theorem test_wf_align_port : wellFormed (.align { aPacket with type := 10 } (.request 18) 0 0 0 0 0) = false := by decide
theorem test_wf_loss_port : wellFormed (.portLossNoSibling ⟨18, false⟩) = false := by decide
theorem test_wf_plan : wellFormed (.powerUpReset { anEnv with plan := [] }) = false := by decide
theorem test_wf_devices_twice : wellFormed (.powerUpReset { anEnv with devFail := [4, 4] }) = false := by decide
theorem test_wf_identities : wellFormed (.powerUpReset { anEnv with devIdent := [] }) = false := by decide
theorem test_wf_coeff : wellFormed (.powerUpReset { anEnv with coeffBad := [24] }) = false := by decide
theorem test_wf_request_empty : wellFormed (.memoryRequest 0 true 0 [] .clean 0) = false := by decide
theorem test_wf_request_granule : wellFormed (.memoryRequest 0 true 63 [1, 2] .clean 0) = false := by decide
theorem test_wf_device : wellFormed (.deviceNotAnswering 24 true) = false := by decide
theorem test_wf_port : wellFormed (.absentRetry 18) = false := by decide
theorem test_wf_slots : wellFormed (.linkFrame 0 { aFrame with slots := [] }) = false := by decide
theorem test_wf_corrected : wellFormed (.portRetrain 0 ⟨0, []⟩) = false := by decide
theorem test_wf_direction : wellFormed (.packetRoute 7 aPacket) = false := by decide
theorem test_wf_packet : wellFormed (.data { aPacket with data := [1] }) = false := by decide
theorem test_wf_packet_long : wellFormed (.data { aPacket with data := List.replicate 80 0 }) = false := by decide
theorem test_wf_monitors : wellFormed (.monitorSample 0 [] []) = false := by decide
theorem test_wf_host_read : wellFormed (.hostRead 0 257) = false := by decide
theorem test_wf_host_write : wellFormed (.hostWrite 0 []) = false := by decide
theorem test_wf_register : wellFormed (.registerWrite 0x1F0000000004 .full 0) = false := by decide

/-! Words written out from the encoding tables: the worked words of R301, and one of each group. -/

theorem test_word_kset : encode (.kset (.tower 0) 8 1 1) = 0x21040001 ∧
    decodeWord (.tower 0) 0x21040001 = some (.kset (.tower 0) 8 1 1) := by decide
theorem test_word_cinv : decodeWord (.tower 0) 0x5F08A001 = some (.cinv ⟨.tower 0, .none⟩ 2 5) := by decide
theorem test_word_copy : decodeWord (.tower 0) 0xF02B5258 = some (.stCopy 0 .push 5 3 10 2 11) := by decide
theorem test_word_qsync : encode (.qsync 0 2 2) = 0x60C00082 ∧ decodeWord (.tower 0) 0x60C00082 = some (.qsync 0 2 2) := by decide
theorem test_word_wait : decodeWord (.tower 0) 0x60800004 = some (.waitQ 0 4) := by decide
theorem test_word_bset : decodeWord (.tower 0) 0x54010003 = some (.bset ⟨.tower 0, .none⟩ 8 3) := by decide
theorem test_word_bwait : decodeWord (.tower 0) 0x56810003 = some (.bwait1 (.tower 0) 8 3 0) := by decide
theorem test_word_add : decodeWord (.tower 0) 0x04611000 = some (.add (.tower 0) 3 1 2 false) := by decide
theorem test_word_zero : decodeWord (.tower 0) 0 = none := by decide
theorem test_word_keep_engine : decodeWord (.keep false) 0xF02B5258 = none := by decide
/-- A nonzero bit in a field marked zero is illegal (R265). -/
theorem test_word_zero_field : decodeWord (.tower 0) 0x5F08A003 ≠ some (.cinv ⟨.tower 0, .none⟩ 2 5) := by decide


/-! States that the witnesses stand on. -/

/-- A module that is READY, with 64 GiB of device memory. -/
def up : State :=
  let s := ((State.reset.setF Reg.keepStatReady 1).setF Reg.hstStatReady 1).setF Reg.memSizeSize 0x1000000000
  { s with
    dev := { s.dev with order := List.range 24 }
    boot := { s.boot with state := 2, running := false, fw := some false } }
/-- A descriptor with PHYS = 1 of 16 MiB at an LPA. -/
def seg (base region policy : Nat) : Seg :=
  ⟨BitVec.ofNat 64 base, BitVec.ofNat 64 (0xFFFFFF * 2 ^ 16 + 2 ^ 8 + policy * 2 ^ 6 + region * 2 ^ 4 + 3)⟩
def core0 : Core where
  g := [(1, 5), (2, 7), (3, 0xFFFFFFFFFFFFFFFF), (4, 0x8000000000000000), (5, 0x40), (6, 64)]
  q := [(1, 0x3FF00000000000004008000000000000), (2, 0x4000000000000000C010000000000000), (3, 0x7FF4000000000001)]
  segs := [(1, seg 0x100000 1 3), (2, seg (0x100000000000 + 5 * 0x800000) 0 3), (3, seg 0x200000 1 0)]
  pc := 0x1000
  evec := 0x20001
def step0 : StepSt where
  desc := List.replicate 128 0
  regions := []
  fail := 0
  due := 0
  phase := .resident
  towers := [5]
def tower0 : Tower := { core := core0, run := .running, step := some 65536, rank := 0 }
def chan0 : Channel :=
  { state := 1, live := true, gen := 1, asid := 3, sqLog := 4, cqLog := 4, sqBase := 0x300000, cqBase := 0x301000 }
/-- Tower 5 runs the step of index 0 on channel 1. -/
def run : State := { up with
  towers := [(5, tower0)]
  steps := [(65536, step0)]
  chans := [(1, chan0)]
  keep0 := { core0 with estat := 2 } }
abbrev c5 : CoreId := .tower 5
def withG (l : List (Nat × Dword)) (s : State) : State := s.modCore c5 (fun k => { k with g := l })
/-- A memory that holds something, and a line of the L1. -/
def mem1 : List Host.Cell := Tab.putAll 0 [] 0x100040 ((List.range 64).map (fun i => BitVec.ofNat 8 (0x81 + 3 * i)))
def runM : State := { run with mem := mem1 }
def aLine (line : Nat) (dirty : Bool) : L1Line := ⟨line, dirty, List.replicate 64 9, line * 64⟩
def lineAt (s : State) (line : Nat) (dirty : Bool) : State :=
  s.modCore c5 (fun k => { k with l1 := Tab.set k.l1 (k.l1Take line) (aLine line dirty) })

/-! The scalar core. -/

theorem wit_issuing : run.issuing c5 = true ∧ run.issuing (.keep false) = true := by decide
theorem wit_canTrap : CanTrap c5 run ∧ CanTrap (.keep false) run := by unfold CanTrap; decide
theorem wit_StepRunsFrontOrIdles : up.pending = [] ∧ up.boot.power = true ∧ up.towers = [] := by decide
theorem wit_AluSumsAndFlags : run.issuing c5 = true := wit_issuing.1
theorem wit_AluProductsAndDivisions : run.issuing c5 = true := wit_issuing.1
theorem wit_AluBitwiseCountsConstants : run.issuing c5 = true := wit_issuing.1
theorem wit_ControlTransfers : run.issuing c5 = true ∧ ∃ t, exec (.sub c5 0 1 2 true) run = .next t :=
  ⟨wit_issuing.1, _, rfl⟩
theorem wit_MovesAndCoreState : run.issuing c5 = true ∧ CanTrap c5 run ∧ (3 : BitVec 5) ∈ [(3 : BitVec 5), 4, 6, 7, 8] :=
  ⟨wit_issuing.1, wit_canTrap.1, by decide⟩
theorem wit_MovesAndCoreState_registers :
    let s := withG [(7, BitVec.ofNat 64 Reg.rollCount), (8, BitVec.ofNat 64 (Reg.twrIen 5))] run
    s.issuing c5 = true ∧ ((s.core c5).getG 7 + (0 : BitVec 15).signExtend 64 * 8).toNat = Reg.rollCount ∧
      ((s.core c5).getG 8 + (0 : BitVec 15).signExtend 64 * 8).toNat = Reg.twrIen 5 := by decide
/-- q3 holds a signalling NaN. -/
theorem wit_FloatRoundedResults : run.issuing c5 = true ∧
    (let x := ((run.core c5).getQ 3).toNat % 2 ^ 64; x / 2 ^ 52 % 2 ^ 11 = 2047 ∧ x % 2 ^ 52 ≠ 0 ∧ x % 2 ^ 52 < 2 ^ 51) := by
  decide
/-- 3.0 has exponent 1, and 0 has none. -/
theorem wit_FloatExactResults : run.issuing c5 = true ∧
    (FFmt.b64.dec (((run.core c5).getQ 1).toNat % 2 ^ 64 % 2 ^ 64)).logb = some 1 ∧
    (FFmt.b64.dec (((run.core c5).getQ 9).toNat % 2 ^ 64 % 2 ^ 64)).logb = none := by decide
theorem wit_ShortVectors : run.issuing c5 = true ∧ CanTrap c5 run ∧ ((6 : R3) = 6 ∨ (6 : R3) = 7) ∧ (5 : R3) ≠ 7 :=
  ⟨wit_issuing.1, wit_canTrap.1, by decide⟩

/-! Memory as the scalar core sees it. -/

theorem wit_quiet : Quiet c5 runM ∧ AllClean (runM.core c5) :=
  ⟨by unfold Quiet NoRequests; decide, fun i e h => by simp [runM, run, State.core, State.tw, Tab.get, tower0, core0] at h⟩
theorem wit_sound : Sound runM 0x100040 8 := by unfold Sound; decide
theorem wit_LoadsReadBytes : runM.issuing c5 = true ∧ Quiet c5 runM ∧
    FindsUncached c5 runM ((runM.core c5).getS 1) 0x40 8 (memAt runM 0x100040 8) :=
  ⟨by decide, wit_quiet.1, 0x100040, 0x100040, by decide, by unfold OnePiece; decide, wit_sound, rfl⟩
/-- A load of a line that the L1 holds. -/
theorem wit_LoadsReadBytes_cached : let s := lineAt runM (0x200040 / 64) true
    s.issuing c5 = true ∧ Quiet c5 s ∧ FindsCached c5 s ((s.core c5).getS 3) 0x40 8 (List.replicate 8 9) := by
  refine ⟨by decide, by unfold Quiet NoRequests; decide, 0x200040, 0x200040, (run.core c5).l1Take (0x200040 / 64),
    aLine (0x200040 / 64) true, by decide, by unfold OnePiece; decide, by decide, by decide, by decide, by decide⟩
/-- Maintenance of a line that is not held, and a line that comes. -/
theorem wit_LoadsReadBytes_absent :
    OnePiece c5 runM ((runM.core c5).getS 3) .read 0x40 1 0x200040 0x200040 ∧
    OnePiece c5 runM ((runM.core c5).getS 3) .write 0x40 1 0x200040 0x200040 ∧ Quiet c5 runM ∧
    (runM.core c5).l1Line (0x200040 / 64) = none :=
  ⟨by unfold OnePiece; decide, by unfold OnePiece; decide, wit_quiet.1, by decide⟩
def runFill : State := runM.modCore c5 (fun k => { k with fill := some ⟨0x100040 / 64, 0x100040⟩, wait := .l1Miss })
theorem wit_LoadsReadBytes_fill : (runFill.core c5).fill = some ⟨0x100040 / 64, 0x100040⟩ ∧
    NoRequests (runFill.tw (trackIdx c5)) ∧ Sound runFill (0x100040 / 64 * 64) 64 ∧
    Tab.find (runFill.core c5).l1 ((runFill.core c5).l1Take (0x100040 / 64)) = none := by
  unfold NoRequests Sound; decide
theorem wit_StoresBufferedAndSegments : runM.issuing c5 = true ∧
    runM.coreResolve c5 ((runM.core c5).getS 1) .write 0x40 8 = (.ok [⟨0x100040, 8, 0x100040⟩], runM) ∧
    (runM.core c5).sbuf.length < 8 := by decide
/-- A full buffer whose oldest store can, and one whose oldest cannot, be performed. -/
def withSbuf (l : List SbEntry) : State := runM.modCore c5 (fun k => { k with sbuf := l })
theorem wit_StoresBufferedAndSegments_full :
    let s := withSbuf (List.replicate 8 ⟨[⟨0x100040, 2, 0x100040⟩], 3, [1, 2], false⟩)
    let s' := withSbuf (List.replicate 8 ⟨[⟨0x100040, 2, 0x100040⟩], 0, [1, 2], false⟩)
    s.issuing c5 = true ∧ 8 ≤ (s.core c5).sbuf.length ∧ (s.drainOne c5 .none).1 = true ∧
    ((s.drainOne c5 .none).2.core c5).sbuf.length < 8 ∧ (s'.drainOne c5 .none).1 = false := by decide
theorem wit_StoresBufferedAndSegments_drain :
    let s := withSbuf [⟨[⟨0x100040, 2, 0x100040⟩], 3, [1, 2], false⟩]
    s.executes c5 = true ∧ (s.core c5).sbuf = ⟨[⟨0x100040, [(1 : Byte), 2].length, 0x100040⟩], 3, [1, 2], false⟩ :: [] ∧ (s.core c5).victim = none ∧
    Memory.wf s.mem = true ∧ (s.core c5).fill = none ∧ NoRequests (s.tw (trackIdx c5)) ∧ Sound s 0x100040 2 := by
  unfold NoRequests Sound; decide
theorem wit_StoresBufferedAndSegments_line :
    let s := (lineAt runM (0x200040 / 64) false).modCore c5
      (fun k => { k with sbuf := [⟨[⟨0x20007E, 2, 0x20007E⟩], 0, [1, 2], false⟩] })
    s.executes c5 = true ∧ 0x20007E % 64 + 2 ≤ 64 ∧ NoRequests (s.tw (trackIdx c5)) ∧
    (s.core c5).l1Line (0x20007E / 64) = some ((run.core c5).l1Take (0x200040 / 64), aLine (0x200040 / 64) false) ∧
    (s.core c5).victim = none ∧ (s.core c5).fill = none := by
  unfold NoRequests; decide
/-- A valid descriptor in memory, and one with a reserved bit. -/
def segBytes (w1 : Nat) : List Byte := leBytes 8 0x10000 ++ leBytes 8 w1
def runSeg (w1 : Nat) : State := { run with mem := Tab.putAll 0 [] 0x100040 (segBytes w1) }
theorem wit_StoresBufferedAndSegments_sld :
    (∀ w1 ∈ [0xFFFF0003, 0xFFFF000B], (runSeg w1).issuing c5 = true ∧
      (runSeg w1).coreResolve c5 (((runSeg w1).core c5).getS 1) .read 0x40 16 = (.ok [⟨0x100040, 16, 0x100040⟩], runSeg w1) ∧
      (List.range 16).map (fun j => Tab.get 0 (runSeg w1).mem (0x100040 + j)) = segBytes w1) ∧
    (runSeg 0).segInvalid false ⟨0x10000, 0xFFFF0003⟩ = false ∧
    (runSeg 0).segInvalid false ⟨0x10000, 0xFFFF000B⟩ = true := by decide
/-- Lines of the L1 clean and dirty, and an access that a check refuses. -/
theorem wit_CachesAndFences : ∀ dirty, let s := lineAt runM (0x200040 / 64) dirty
    s.issuing c5 = true ∧ Quiet c5 s ∧ OnePiece c5 s ((s.core c5).getS 3) .read 0x40 1 0x200040 0x200040 ∧
    OnePiece c5 s ((s.core c5).getS 3) .write 0x40 1 0x200040 0x200040 ∧
    (s.core c5).l1Line (0x200040 / 64) = some ((run.core c5).l1Take (0x200040 / 64), aLine (0x200040 / 64) dirty) ∧
    (aLine (0x200040 / 64) dirty).data.length = 64 ∧ Sound s 0x200040 64 ∧ Memory.wf s.mem = true := by
  intro dirty; cases dirty <;> (unfold Quiet OnePiece Sound NoRequests; decide)
theorem wit_CachesAndFences_refused :
    runM.coreResolve c5 ((runM.core c5).getS 6) .read 0x40 1 = (.error (.seg 1 0x40), runM) := by decide
theorem wit_CachesAndFences_error : run.stepOf 5 = some (65536, step0) ∧ 5 ∈ step0.towers := by decide

/-! Bits, exceptions, the end of a program, the timer. -/

def bits5 : State := (run.modTw 5 (fun w => { w with localBits := [(5, true)] })).modCore c5
  (fun k => { k with g := [(1, 5), (2, 6), (5, 0x10005), (6, 0x20005), (9, 0x10080), (10, 0x30400), (11, 0x40000)], bwin := 0x30002 })
theorem wit_BitSpace_local : bits5.issuing c5 = true ∧ ((bits5.core c5).getG 1 + (0x1FFF : BitVec 13).setWidth 64).toNat < 65536 := by
  decide
/-- The bits 5 of the window on the own die and on the peer, and addresses just outside. -/
theorem wit_BitSpace_shared : let k := bits5.core c5
    Quiet c5 bits5 ∧ AllClean k ∧ CanTrap c5 bits5 ∧
    (k.getG 5).toNat / 65536 = 1 ∧ (k.getG 6).toNat / 65536 = 2 ∧
    (k.getG 5).toNat % 65536 < fld k.bwin 10 0 * 64 ∧ fld k.bwin 25 16 * 64 + 5 < 65536 ∧
    ((k.getG 9).toNat / 65536 = 1 ∧ ¬ (k.getG 9).toNat % 65536 < fld k.bwin 10 0 * 64) ∧
    ((k.getG 10).toNat / 65536 = 3 ∧ 0x400 ≤ (k.getG 10).toNat % 65536) ∧ 4 ≤ (k.getG 11).toNat / 65536 := by
  refine ⟨by unfold Quiet NoRequests; decide, fun i e h => ?_, by unfold CanTrap; decide, by decide⟩
  simp [bits5, State.modCore, State.setCore, State.modTw, State.setTw, run, State.core, State.tw, Tab.get, tower0, core0] at h
theorem wit_BitWaits : bits5.issuing c5 = true ∧ bits5.f (Reg.sprFillDuty (5 : TId).toNat) = 0 ∧
    Tab.get false (bits5.tw 5).localBits 5 = true ∧ Tab.get false (bits5.tw 5).localBits 6 = false := by decide
theorem wit_BitWaits_timeout : let s := bits5.modCore c5 (fun k => { k with wait := .bwait true 5 true })
    s.executes c5 = true ∧ s.f (Reg.sprFillDuty (5 : TId).toNat) = 0 ∧ (s.core c5).wait = .bwait true 5 true := by decide
/-- A core that can trap, one in a handler, one that an error source brought there, one without vectors. -/
def handler (src : Option Nat) : State := run.modCore c5 (fun k => { k with estat := 1, epc := 0x4444, errSrc := src })
def noVectors : State := run.modCore c5 (fun k => { k with evec := 0 })
theorem wit_ExceptionsAndReturn : run.issuing c5 = true ∧ decodeWord c5 0xFFFFFFFF = none ∧ CanTrap c5 run ∧
    (handler none).issuing c5 = true ∧ bit ((handler none).core c5).estat 0 = true ∧ ((handler none).core c5).errSrc = none ∧
    (handler (some 16)).issuing c5 = true ∧ ((handler (some 16)).core c5).errSrc ≠ none ∧
    noVectors.issuing c5 = true ∧ ¬ CanTrap c5 noVectors := by unfold CanTrap; decide
theorem wit_AsynchronousEntries_events : let s := run.modTw 5 (fun w => { w with armed := true, timer := 9 })
    (s.tw (5 : TId).toNat).run = .running ∧ (s.tw (5 : TId).toNat).held = false ∧ (s.tw (5 : TId).toNat).armed = true := by decide
theorem wit_AsynchronousEntries_engine :
    let s := run.modCore c5 (fun k => { k with engPend := [⟨2, 4, 0x1234, 0⟩] })
    s.executes c5 = true ∧ s.f (Reg.sprFillDuty (5 : TId).toNat) = 0 ∧ (s.core c5).wait = .none ∧
    (s.core c5).engPend = [⟨2, 4, 0x1234, 0⟩] ∧ CanTrap c5 s := by unfold CanTrap; decide
/-- Source 2 is pending and enabled, source 1 only pending. -/
theorem wit_AsynchronousEntries_interrupt : let s := (run.wr (Reg.twrIpend 5) 0x6).wr (Reg.twrIen 5) 0x4
    s.executes c5 = true ∧ s.f (Reg.sprFillDuty (5 : TId).toNat) = 0 ∧ (s.core c5).engPend = [] ∧ bit (s.core c5).estat 0 = false ∧
    (∀ m < 23, ((s.pendingSrc (5 : TId).toNat).testBit m && s.srcEligible (5 : TId).toNat m) = decide (m = 2)) := by decide
theorem wit_ProgramEndAndQueueSync : run.issuing c5 = true ∧ Quiet c5 runM ∧ AllClean (runM.core c5) ∧ CanTrap c5 run ∧
    (run.core c5).errSrc = none ∧ EnginesIdle (run.tw (5 : TId).toNat) ∧ run.stepOf (5 : TId).toNat = some (65536, step0) ∧
    (run.tw (5 : TId).toNat).rank = 0 :=
  ⟨by decide, wit_quiet.1, wit_quiet.2, wit_canTrap.1, by unfold EnginesIdle; decide⟩
/-- A queue one short of full, and a full one. -/
def markers (n : Nat) : State := run.modTw 5 (fun w =>
  { w with qSpr := List.replicate n ⟨0, .marker 0, [], [], 0, 0, 0, false, .due⟩ })
theorem wit_ProgramEndAndQueueSync_queue : (markers 31).issuing c5 = true ∧ (markers 32).issuing c5 = true ∧
    (((markers 31).tw (5 : TId).toNat).queue (engOf 1)).length < 32 ∧
    32 ≤ (((markers 32).tw (5 : TId).toNat).queue (engOf 1)).length := by decide
def wdog : State := (run.modTw 5 (fun w => { w with armed := true, timer := 9 })).wr (Reg.twrWdog 5) 9
def sampler : State := (((run.wr (Reg.twrSmpBase 5) 0x400000).setF (Reg.twrSmpCtrlEn 5) 1).setF (Reg.twrSmpCtrlInterval 5) 200).setF
  (Reg.twrSmpCtrlLog2n 5) 6
theorem wit_TimerAndTowerRegisters_watchdog : (wdog.tw (5 : TId).toNat).armed = true ∧
    (wdog.tw (5 : TId).toNat).run = .running ∧ (wdog.tw (5 : TId).toNat).held = false ∧
    wdog.srcEligible (5 : TId).toNat 0 = false := by decide
theorem wit_TimerAndTowerRegisters_control : let v : Dword := 64 * 2 ^ 32 + 13
    let s := run.wr (Reg.twrSmpBase 5) 0x400000
    bit v 0 = true ∧ s.fb (Reg.twrSmpCtrlEn (5 : TId).toNat) = false ∧ 64 ≤ fld v 63 32 ∧ 6 ≤ fld v 5 1 ∧ fld v 5 1 ≤ 16 ∧
    s.inDevOrWin (fld (s.rd (Reg.twrSmpBase (5 : TId).toNat)) 44 4 * 16) (16 * 2 ^ fld v 5 1) = true := by decide
theorem wit_TimerAndTowerRegisters_full :
    let s := (sampler.setF (Reg.twrSmpProdProd 5) 66).setF (Reg.twrSmpConsCons 5) 2
    s.timerOwner (5 : TId).toNat = 2 ∧ (s.tw (5 : TId).toNat).run = .running ∧ (s.tw (5 : TId).toNat).held = false ∧
    (s.f (Reg.twrSmpProdProd (5 : TId).toNat) + 2 ^ 32 - s.f (Reg.twrSmpConsCons (5 : TId).toNat)) % 2 ^ 32
      = 2 ^ s.f (Reg.twrSmpCtrlLog2n (5 : TId).toNat) := by decide
theorem wit_TimerAndTowerRegisters_record : let s := sampler
    let n := (5 : TId).toNat
    let prod := s.f (Reg.twrSmpProdProd n)
    let size := 2 ^ s.f (Reg.twrSmpCtrlLog2n n)
    let adr := fld (s.rd (Reg.twrSmpBase n)) 44 4 * 16 + prod % size * 16
    s.timerOwner n = 2 ∧ (s.tw n).run = .running ∧ (s.tw n).held = false ∧
    (prod + 2 ^ 32 - s.f (Reg.twrSmpConsCons n)) % 2 ^ 32 ≠ size ∧ Memory.wf s.mem = true ∧
    adr + 16 ≤ s.f Reg.memSizeSize ∧ adr + 16 ≤ 0x100000000000 ∧ s.unreadable adr 16 = false := by decide
/-- A roll register, an own register by its address and by the alias, another Tower's, and the slot register. -/
theorem wit_TimerAndTowerRegisters_registers :
    let real := fun named : Nat => if 0x1F010FF00000 ≤ named ∧ named < 0x1F0110000000
      then towerBase (5 : TId).toNat + named % 0x100000 else named
    run.issuing c5 = true ∧ CanTrap c5 run ∧ real Reg.rollCount = Reg.rollCount ∧ Reg.rollCount % 8 = 0 ∧
    real (0x1F010FF00000 + Reg.twrInstret 5 % 0x100000) = Reg.twrInstret 5 ∧
    (ownBlock (5 : TId).toNat (Reg.twrInstret 5) = true ∧ blockEngine (Reg.twrInstret 5 % 0x100000) = none) ∧
    ownBlock (5 : TId).toNat (real (Reg.twrWdog 6)) = false ∧ real (Reg.accSlot 5 0) = Reg.accSlot 5 0 := by
  refine ⟨wit_issuing.1, wit_canTrap.1, ?_⟩
  decide

/-! Buffered stores, evicted lines, upsets, pending exceptions. -/

theorem wit_LoadsReadBytes_upset : ∃ u : TId, c5 = .tower u := ⟨5, rfl⟩
/-- One dirty line, an uncached store and one to that line waiting, and a window of shared bits. -/
def toFlush : State := (lineAt runM (0x200040 / 64) true).modCore c5 (fun k => { k with
  sbuf := [⟨[⟨0x100040, 2, 0x100040⟩], 3, [1, 2], false⟩, ⟨[⟨0x200042, 2, 0x200042⟩], 0, [3, 4], false⟩]
  g := [(5, 0x10005)]
  bwin := 0x30002 })
theorem only_line (i : Nat) (e : L1Line) (h : Tab.find (toFlush.core c5).l1 i = some e) :
    i = (run.core c5).l1Take (0x200040 / 64) ∧ e = aLine (0x200040 / 64) true := by
  have hl : (toFlush.core c5).l1 = [((run.core c5).l1Take (0x200040 / 64), aLine (0x200040 / 64) true)] := by decide
  rw [hl] at h
  simp only [Tab.find] at h
  split at h <;> simp_all
theorem wit_CachesAndFences_flush : Flushable c5 toFlush ∧ toFlush.issuing c5 = true ∧ (toFlush.core c5).errSrc = none ∧
    EnginesIdle (toFlush.tw (5 : TId).toNat) ∧
    (let k := toFlush.core c5
     let adr := (k.getG 5 + (0 : BitVec 13).setWidth 64).toNat
     adr / 65536 = 1 ∧ adr % 65536 < fld k.bwin 10 0 * 64 ∧ fld k.bwin 25 16 * 64 + adr % 65536 < 65536) := by
  refine ⟨⟨by decide, by decide, by unfold NoRequests; decide, by decide, fun i e h => ?_, ?_⟩, by decide, by decide,
    by unfold EnginesIdle; decide, by decide⟩
  · obtain ⟨rfl, rfl⟩ := only_line i e h
    exact ⟨by decide, fun _ => ⟨by decide, by unfold Sound; decide⟩⟩
  · intro x hx
    have hs : (toFlush.core c5).sbuf = [⟨[⟨0x100040, 2, 0x100040⟩], 3, [1, 2], false⟩, ⟨[⟨0x200042, 2, 0x200042⟩], 0, [3, 4], false⟩] := by
      decide
    rw [hs] at hx
    simp only [List.mem_cons, List.not_mem_nil, or_false] at hx
    obtain rfl | rfl := hx
    · exact ⟨_, _, rfl, by decide, by decide, by unfold Sound; decide, by decide⟩
    · exact ⟨_, _, rfl, by decide, by decide, by unfold Sound; decide, by decide⟩
/-- An evicted line waits with no store before it; a dirty line meets an upset; a write-back of a line held fails. -/
theorem wit_CachesAndFences_victim : let s := lineAt runM (0x200040 / 64) true
    let e := aLine (0x300040 / 64) true
    Flushable c5 runM ∧ runM.executes c5 = true ∧ e.data.length = 64 ∧ Sound runM (e.line * 64) 64 ∧ (runM.core c5).sbuf = [] ∧
    (∃ x ∈ (s.core c5).l1, x.2.dirty = true) ∧ Quiet c5 s ∧ s.issuing c5 = true ∧
    (s.core (.tower 5)).l1Line ((0x200040 : BitVec 45).toNat / 64 + s.self * 2 ^ 39) =
      some ((run.core c5).l1Take (0x200040 / 64), aLine (0x200040 / 64) true) := by
  refine ⟨⟨by decide, by decide, by unfold NoRequests; decide, by decide, fun i e h => ?_, fun x h => ?_⟩, by decide, by decide,
    by unfold Sound; decide, by decide, ?_, by unfold Quiet NoRequests; decide, by decide, by decide⟩
  · simp [runM, run, State.core, State.tw, Tab.get, tower0, core0] at h
  · simp [runM, run, State.core, State.tw, Tab.get, tower0, core0] at h
  · decide
theorem wit_BitWaits_pending : let s := bits5.modCore c5 (fun k => { k with wait := .bwait true 5 true, engPend := [⟨2, 4, 0x1234, 0⟩] })
    s.executes c5 = true ∧ s.f (Reg.sprFillDuty (5 : TId).toNat) = 0 ∧ (s.core c5).wait = .bwait true 5 true ∧
    (s.core c5).engPend ≠ [] ∧ bit (s.core c5).estat 0 = false := by decide
theorem wit_EngineIssue_upset : Eng.dom.meets (.dmFree 5 (.upset .dome) 1) .dome = true ∧ (run.tw (5 : TId).toNat).stop .dom = .running := by
  decide

/-! The engines. -/

theorem wit_EngineIssue : run.issuing c5 = true ∧ CanTrap c5 run ∧ ((run.tw (5 : TId).toNat).queue .dom).length = 0 ∧
    (((markers 32).tw (5 : TId).toNat).queue .spr).length = 32 ∧ (markers 32).issuing c5 = true ∧
    fmtCode .b64 < 6 ∧ 6 ≤ fmtCode .int4 ∧ fmtCode .int4 < 10 ∧ 10 ≤ fmtCode .c32 ∧ (2 : BitVec 2) ≠ 3 :=
  ⟨wit_issuing.1, wit_canTrap.1, by decide⟩

theorem around_registers : ∀ u : TId,
    Reg.gwlIdModule.addr ∉ [Reg.accTrk u.toNat, Reg.twrInstret u.toNat, Reg.twrTstart u.toNat] ∧
    Reg.memSizeSize.addr ∉ [Reg.accTrk u.toNat, Reg.twrInstret u.toNat, Reg.twrTstart u.toNat] := by decide

/-- A range that a PHYS descriptor names, within one page, is reached whatever the Tower's engines do meanwhile. -/
theorem reaches_phys (s : State) (u : TId) (tlb : Nat) (g : Seg) (acc : Access) (o n fpa : Nat) (hn : 0 < n)
    (hs : Sound s fpa n) (hw : NoRequests (s.tw u.toNat)) (hp : g.phys = true) (hc : g.check acc o n = none)
    (hsp : pageSplit (n / 65536 + 2) (g.base + o) n = [(g.base + o, n)]) (hf : s.physFpa g.region (g.base + o) = fpa)
    (hr : s.inRegion g.region fpa = true) (hh : s.holeIn fpa n = none) : Reaches s u tlb g acc o n fpa := by
  refine ⟨hn, hs, hw, g.base + o, fun s' h => ?_⟩
  obtain ⟨-, hv, -, -, -, -, -, hrun, -, -, hrd⟩ := h
  have rdE (r : RegField) (hr : r.addr ∉ [Reg.accTrk u.toNat, Reg.twrInstret u.toNat, Reg.twrTstart u.toNat]) :
      s'.f r = s.f r := by simp only [State.f, hrd _ hr]
  have self : s'.self = s.self := rdE _ (around_registers u).1
  have size := rdE _ (around_registers u).2
  have runs (v : Nat) : (s'.tw v).run = (s.tw v).run := by
    by_cases h : v = u.toNat
    · rw [h, hrun]
    · rw [hv v h]
  have lpa (a : Nat) : s'.lpaPlace a = s.lpaPlace a := by simp only [State.lpaPlace, size, runs]
  have place (a : Nat) : s'.place a = s.place a := by simp only [State.place, self, lpa]
  have hf' : s'.physFpa g.region (g.base + o) = fpa := by simpa only [State.physFpa, self] using hf
  have hr' : s'.inRegion g.region fpa = true := by simpa only [State.inRegion, self] using hr
  have hh' : s'.holeIn fpa n = none := by simpa only [State.holeIn, place, size] using hh
  simp [State.resolve, hc, hsp, State.resolvePieces, hp, hf', hr', hh']

/-! The Dome, the Spire, the Turret, tiles. -/

def dome (cls m n : Nat) : DomeTile :=
  ⟨cls, m, n, true, true, [(0, ⟨.finite, false, false, 12345⟩), (1, ⟨.finite, true, false, 3⟩), (2, ⟨.exhausted, false, false, 0⟩)]⟩
def eng : State := run.modTw 5 (fun w => { w with
  dome := [(1, dome 0 3 2), (2, dome 2 2 2)]
  tiles := Tab.setAll [] (2 * 32768) ((List.range 64).map (fun i => BitVec.ofNat 8 (i * 37 + 11))) })
def engG (l : List (Nat × Dword)) (s : State) : State := s.modCore c5 (fun k => { k with g := l })
theorem wit_free : ∀ e, FreeEngine 5 e eng := by intro e; cases e <;> (unfold FreeEngine; decide)
/-- The same, with each condition a fact of one state. -/
theorem reaches_here {s : State} {tlb : Nat} {g : Seg} {acc : Access} {o n fpa : Nat}
    (h : 0 < n ∧ Sound s fpa n ∧ NoRequests (s.tw (5 : TId).toNat) ∧ g.phys = true ∧ g.check acc o n = none ∧
      pageSplit (n / 65536 + 2) (g.base + o) n = [(g.base + o, n)] ∧ s.physFpa g.region (g.base + o) = fpa ∧
      s.inRegion g.region fpa = true ∧ s.holeIn fpa n = none) : Reaches s 5 tlb g acc o n fpa :=
  reaches_phys s 5 tlb g acc o n fpa h.1 h.2.1 h.2.2.1 h.2.2.2.1 h.2.2.2.2.1 h.2.2.2.2.2.1 h.2.2.2.2.2.2.1 h.2.2.2.2.2.2.2.1
    h.2.2.2.2.2.2.2.2

/-- Shapes that fit, a class that is none, a class too wide, and a tile that takes more granules than are free. -/
theorem wit_DomeTilesLoaded : FreeEngine 5 .dom eng ∧ (eng.tw (5 : TId).toNat).spireCount (1 : R3).toNat = 0 ∧
    (∃ c, laneClass (0 : R3).toNat = some c ∧ 3 ≤ c.side ∧
      granulesOf (0 : R3).toNat 3 3 ≤ (eng.tw (5 : TId).toNat).domFree (some (3 : R3).toNat)) ∧
    laneClass (7 : R3).toNat = none ∧ (∃ c, laneClass (4 : R3).toNat = some c ∧ c.side < 256) ∧
    Tab.find (eng.tw (5 : TId).toNat).dome (1 : R3).toNat = some (dome 0 3 2) ∧
    Tab.find (eng.tw (5 : TId).toNat).dome (3 : R3).toNat = none ∧ (dome 0 3 2).n * (fmtBits .b64 / 8) ≤ 256 ∧
    fmtCode .b64 < 6 := ⟨wit_free .dom, by decide, ⟨_, rfl, by decide, by decide⟩, by decide, ⟨_, rfl, by decide⟩, by decide⟩

/-- The lane block of tile 1 stands at 0x101000. -/
def theBlock : List Byte := laneBlock 0 3 2 ((List.range 6).map (Tab.get Lane.zero (dome 0 3 2).lanes))
def engX : State := engG [(5, 0x1000), (6, BitVec.ofNat 64 (3 * 2 ^ 22 + 2 ^ 8 + fmtCode .pip16))]
  { eng with mem := Tab.putAll 0 [] 0x101000 theBlock }
theorem wit_engX : FreeEngine 5 .dom engX ∧ (engX.tw (5 : TId).toNat).spireCount (1 : R3).toNat = 0 ∧
    Tab.find (engX.tw (5 : TId).toNat).dome (1 : R3).toNat = some (dome 0 3 2) ∧ Memory.wf engX.mem = true ∧
    (engX.core c5).getS 1 = seg 0x100000 1 3 ∧ ((engX.core c5).getG 5).toNat = 0x1000 := by unfold FreeEngine; decide
theorem wit_DomeTilesMoved_write : Reaches engX 5 3 (seg 0x100000 1 3) .write 0x1000 theBlock.length 0x101000 :=
  reaches_here (by unfold Sound NoRequests; decide)
theorem wit_DomeTilesMoved_block : theBlock = memAt engX 0x101000 theBlock.length ∧ leAt theBlock 8 4 = theBlock.length ∧
    (∃ c, laneClass 0 = some c ∧ 32 < theBlock.length ∧ theBlock.length ≤ 32 + 3 * 2 * (8 + 8 * c.words)) ∧
    ∃ xs, blockLanes 0 3 2 theBlock = some xs ∧ xs.length = 3 * 2 :=
  ⟨by decide, by decide, ⟨_, rfl, by decide, by decide⟩, _, rfl, by decide⟩
theorem wit_DomeTilesMoved_read : Reaches engX 5 3 (seg 0x100000 1 3) .read 0x1000 32 0x101000 ∧
    Reaches engX 5 3 (seg 0x100000 1 3) .read (0x1000 + 32) (theBlock.length - 32) (0x101000 + 32) :=
  ⟨reaches_here (by unfold Sound NoRequests; decide), reaches_here (by unfold Sound NoRequests; decide)⟩
/-- A control word that clears and frees, and ones with a reserved bit, a mode that is none and a format that is none. -/
theorem wit_DomeTilesMoved_drain : let cw := (engX.core c5).getG 6
    cw.toNat = b2n true * 2 ^ 23 + b2n true * 2 ^ 22 + fld cw 10 8 * 2 ^ 8 + fmtCode .pip16 ∧ fmtCode .pip16 < 6 ∧
    fld cw 10 8 ≠ 5 ∧ fld cw 10 8 ≠ 6 ∧ fld (2 ^ 40 : Dword) 63 40 ≠ 0 ∧ fld (0x500 : Dword) 10 8 = 5 ∧ 6 ≤ fld (6 : Dword) 3 0 := by decide
theorem wit_DomeTilesMoved_drained : Reaches engX 5 3 (seg 0x100000 1 3) .write 0x1000 (3 * 2 * 2) 0x101000 :=
  reaches_here (by unfold Sound NoRequests; decide)

def latch : Latch := ⟨5, 4, 0, false, Tab.setAll [] 0 [3, 5, 7]⟩
def sprState (act shd : Option Latch) : State := engG
  [(1, 0x2211), (2, 0x2200), (3, 0x10000), (4, 0x30), (5, 0x1000), (6, BitVec.ofNat 64 (8 * 2 ^ 16 + 2 * 256 + 4)), (7, 0x8000),
   (8, BitVec.ofNat 64 (1 + 3 * 2 ^ 16))]
  (eng.modTw 5 (fun w => { w with active := act, shadow := shd }))
/-- Control words that change the formats, that keep them, and refused ones; one column more than a class has. -/
theorem wit_SpireLoads : let s := sprState (some latch) none
    let k := s.core c5
    FreeEngine 5 .spr s ∧ (s.tw (5 : TId).toNat).shadow = none ∧
    (let v := k.getG 1; fld v 63 16 = 0 ∧ fld v 7 6 = 0 ∧ fld v 3 1 = 0 ∧ fld v 5 4 ≠ 3 ∧
      spireClass (fld v 11 8) (fld v 15 12) ≠ none ∧ s.f (Reg.sprCfgWfmt (5 : TId).toNat) ≠ fld v 11 8) ∧
    fld (k.getG 3) 63 16 ≠ 0 ∧ fld (k.getG 4) 5 4 = 3 ∧
    (4 : BitVec 7).toNat + 1 ≤ sideOf (s.f (Reg.sprCfgWfmt (5 : TId).toNat)) ∧
    ((3 : BitVec 7).toNat + 1) * spBytes (s.f (Reg.sprCfgWfmt (5 : TId).toNat)) ≤ 256 ∧ bit (k.getG 7) 15 = true := by
  unfold FreeEngine; decide
theorem wit_SpireLoads_side : let s := eng.setF (Reg.sprCfgWfmt 5) 5
    sideOf (s.f (Reg.sprCfgWfmt (5 : TId).toNat)) < (127 : BitVec 7).toNat + 1 := by decide
theorem wit_SpireLoads_memory : let s := sprState none none
    let cw := (s.core c5).getG 6
    let g := (s.core c5).getS 2
    s.fb (Reg.sprCfgStat (5 : TId).toNat) = false ∧ fld cw 63 40 = 0 ∧ bit cw 15 = false ∧ bit cw 7 = false ∧
    fld cw 6 0 + 1 = 5 ∧ fld cw 14 8 + 1 = 3 ∧ fld cw 39 16 = 8 ∧ spBytes (s.f (Reg.sprCfgWfmt (5 : TId).toNat)) = 1 ∧
    ((s.core c5).getG 5).toNat = 0x1000 ∧ (g.base + 0x1000) % 1 = 0 ∧ g.check .read 0x1000 (4 * 8 + 3) = none ∧
    s.place (storeBase 5 + 0x1000) = .store (5 : TId).toNat ∧ g = seg (0x100000000000 + 5 * 0x800000) 0 3 := by decide
theorem wit_SpireLoads_reaches : Reaches (sprState none none) 5 5 (seg (0x100000000000 + 5 * 0x800000) 0 3) .read 0x1000
    (4 * 8 + 3) (storeBase 5 + 0x1000) := reaches_here (by unfold Sound NoRequests; decide)
/-- Rows 0 to 1 of tile 1 times the set, which has as many columns as the tile at most. -/
theorem wit_SpireMultiply : let s := sprState (some { latch with n := 2 }) none
    let cw := (s.core c5).getG 8
    FreeEngine 5 .spr s ∧ fld cw 63 23 = 0 ∧ bit cw 7 = false ∧
    (∃ la, (s.tw (5 : TId).toNat).active = some la ∧ spireClass la.wfmt (s.f (Reg.sprCfgSfmt (5 : TId).toNat)) = some (dome 0 3 2).cls ∧
      la.n ≤ (dome 0 3 2).n ∧ 0 < la.k) ∧ Tab.find (s.tw (5 : TId).toNat).dome (1 : R3).toNat = some (dome 0 3 2) ∧
    fld cw 15 8 + (fld cw 6 0 + 1) ≤ (dome 0 3 2).m ∧ fld cw 22 16 + (fld cw 6 0 + 1) ≤ 128 ∧ (s.tw (5 : TId).toNat).qDom = [] ∧
    (s.tw (5 : TId).toNat).shadow = none := ⟨by unfold FreeEngine; decide, by decide, by decide, ⟨_, rfl, by decide⟩, by decide⟩
theorem wit_SpireMultiply_filler : (eng.setF (Reg.sprFillDuty 5) 64).filling (5 : TId).toNat = true := by decide

def aProgram : List Byte := leBytes 8 1 ++ leBytes 4 0 ++ List.replicate 500 0
def notProgram : List Byte := leBytes 8 1 ++ leBytes 4 0xFFFFFFFF ++ List.replicate 500 0
def turProg (img : List Byte) : State := engG [(5, 0x2000)] { eng with mem := Tab.putAll 0 [] (storeBase 5 + 0x2000) img }
theorem wit_TurretWork_program : ∀ img ∈ [aProgram, notProgram], let s := turProg img
    let g := (s.core c5).getS 2
    FreeEngine 5 .tur s ∧ ((s.core c5).getG 5).toNat = 0x2000 ∧ g = seg (0x100000000000 + 5 * 0x800000) 0 3 ∧
    g.check .read 0x2000 512 = none ∧ (g.base + 0x2000) % 64 = 0 ∧
    s.place (storeBase 5 + 0x2000) = .store (5 : TId).toNat ∧ memAt s (storeBase 5 + 0x2000) 512 = img := by
  unfold FreeEngine; decide
theorem wit_TurretWork_reaches : ∀ img ∈ [aProgram, notProgram], Reaches (turProg img) 5 4 (seg (0x100000000000 + 5 * 0x800000) 0 3)
    .read 0x2000 512 (storeBase 5 + 0x2000) := by
  intro img h
  refine reaches_here ?_
  revert img
  unfold Sound NoRequests
  decide
theorem wit_TurretWork_parse : (parseProg aProgram).isSome = true ∧ parseProg notProgram = none := by decide
theorem wit_TurretWork_convert :
    let s := eng.modTw 5 (fun w => { w with turPtrs := [(0, ⟨true, 2, {}, 0, fmtCode .pip8a⟩), (2, ⟨true, 4, {}, 0, fmtCode .b32⟩)] })
    let w := s.tw (5 : TId).toNat
    FreeEngine 5 .tur s ∧ Tab.find w.turSlots 0 = none ∧ (Tab.get {} w.turPtrs 0).tile = true ∧ (Tab.get {} w.turPtrs 2).tile = true ∧
    fmtOfCode (Tab.get {} w.turPtrs 0).fmt = some .pip8a ∧ fmtOfCode (Tab.get {} w.turPtrs 2).fmt = some .b32 ∧
    (7 : Half).toNat * (fmtBits .b32 / 8) ≤ 32768 ∧ Tab.find w.turSlots (3 : GReg).toNat = none := by unfold FreeEngine; decide

def tile1 : State := engG [(1, BitVec.ofNat 64 (1 + 3 * 256 + 2 * 2 ^ 16)), (2, 127), (3, BitVec.ofNat 64 (2 + 126 * 256)), (5, 0x1000),
  (6, BitVec.ofNat 64 (127 * 256))] eng
/-- Rows that fit, the whole tile, and rows beyond the last; one row moved to the last. -/
theorem wit_TileWork : let k := tile1.core c5
    FreeEngine 5 .tile tile1 ∧ Tab.sortedFrom 0 (tile1.tw (5 : TId).toNat).tiles = true ∧
    (∀ r ∈ [(1 : GReg), 2], let cw := k.getG r
      fld cw 22 16 + (fld cw 6 0 + 1) ≤ 128 ∧ fld cw 14 8 + (fld cw 6 0 + 1) ≤ 128 ∧ fld cw 63 23 = 0 ∧ bit cw 15 = false ∧ bit cw 7 = false) ∧
    128 < fld (k.getG 3) 14 8 + (fld (k.getG 3) 6 0 + 1) ∧
    (let cw := k.getG 6
     fld cw 6 0 = 0 ∧ fld cw 14 8 = 127 ∧ fld cw 63 40 = 0 ∧ bit cw 15 = false ∧ bit cw 7 = false ∧ fld cw 39 16 % 8 = 0) ∧
    (k.getG 5).toNat = 0x1000 ∧ tile1.f (Reg.twrTstartRow (5 : TId).toNat) = 0 ∧ k.getS 1 = seg 0x100000 1 3 ∧
    tile1.f (Reg.twrTcfgRbytes (5 : TId).toNat (2 : R3).toNat) = 256 := by unfold FreeEngine; decide
theorem wit_TileWork_row : Reaches tile1 5 2 (seg 0x100000 1 3) .read 0x1000 256 0x101000 ∧
    Reaches tile1 5 2 (seg 0x100000 1 3) .write 0x1000 256 0x101000 :=
  ⟨reaches_here (by unfold Sound NoRequests; decide), reaches_here (by unfold Sound NoRequests; decide)⟩
/-- The greatest extent, the least, and rows one too many; a Tower with a step and one without. -/
theorem wit_TileWork_extent :
    (let v : Dword := 0x1000080; 1 ≤ fld v 7 0 ∧ fld v 7 0 ≤ 128 ∧ 8 ≤ fld v 24 16 ∧ fld v 24 16 ≤ 256 ∧ fld v 24 16 % 8 = 0) ∧
    (let v : Dword := 0x80001; 1 ≤ fld v 7 0 ∧ fld v 7 0 ≤ 128 ∧ 8 ≤ fld v 24 16 ∧ fld v 24 16 ≤ 256 ∧ fld v 24 16 % 8 = 0) ∧
    128 < fld (0x1000081 : Dword) 7 0 := by decide
theorem wit_TileWork_registers : (up.tw (5 : TId).toNat).step = none ∧ (run.tw (5 : TId).toNat).step ≠ none ∧
    EnginesIdle (run.tw (5 : TId).toNat) ∧ run.f (Reg.twrTstatStopped (5 : TId).toNat) = 0 := by unfold EnginesIdle; decide

/-! The vector unit, streams. -/

def vec (vl : Nat) (f : Fmt) (l : List (Nat × Dword)) : State :=
  engG l ((((eng.setF (Reg.vecSpanFmtBad 5) 0).setF (Reg.vecSpanVl 5) vl).setF (Reg.vecSpanFmt 5) (fmtCode f)).modTw 5 (fun w => { w with
    vregs := Tab.setAll [] (6 * 16384) [3, 0, 0, 0]
    masks := Tab.setAll [] (2 * 32768) [true, false, true, true] }))
theorem wit_VectorElementwise : ∀ f ∈ [Fmt.pip16, .b32, .b64, .int4, .int16, .c32], VectorReady 5 f (vec 9 f []) ∧
    (vec 9 f []).f (Reg.vecSpanVl (5 : TId).toNat) * fmtBits f ≤ 131072 := by unfold VectorReady FreeEngine; decide
/-- The greatest vector length of a format. -/
theorem wit_VectorElementwise_full : VectorReady 5 .b32 (vec 4096 .b32 []) ∧
    (vec 4096 .b32 []).f (Reg.vecSpanVl (5 : TId).toNat) * fmtBits .b32 ≤ 131072 := by unfold VectorReady FreeEngine; decide
theorem wit_VectorMasksAndResults : VectorReady 5 .b32 (vec 9 .b32 []) ∧
    (vec 9 .b32 []).f (Reg.vecSpanVl (5 : TId).toNat) ≤ 32768 ∧ (7 : GReg).toNat < 8 ∧
    Tab.sortedFrom 0 ((vec 9 .b32 []).tw (5 : TId).toNat).vregs = true := by unfold VectorReady FreeEngine; decide
/-- Mask 2 has its first bit at 0, mask 3 none; element 8 is the last. -/
theorem wit_VectorMasksAndResults_reads : let s := vec 9 .b32 [(2, 8)]
    let w := s.tw (5 : TId).toNat
    let vl := s.f (Reg.vecSpanVl (5 : TId).toNat)
    s.issuing c5 = true ∧ EnginesIdle w ∧ s.f (Reg.vecSpanFmtBad (5 : TId).toNat) = 0 ∧
    (0 < vl ∧ w.mbit (2 : R3).toNat 0 = true) ∧ (∀ i < vl, w.mbit (3 : R3).toNat i = false) ∧
    fmtOfCode (s.f (Reg.vecSpanFmt (5 : TId).toNat)) = some .b32 ∧ 8 ≤ fmtBits .b32 ∧ ((s.core c5).getG 2).toNat < vl ∧
    fmtOfCode (15 : BitVec 4).toNat = none := by unfold EnginesIdle; decide
/-- Pairs that are allowed and a pair that is odd, vector lengths that are and are not multiples of 4. -/
theorem wit_VectorReduceAndWiden : VectorReady 5 .int8 (vec 8 .int8 []) ∧ VectorReady 5 .int8 (vec 9 .int8 []) ∧
    0 < (vec 8 .int8 []).f (Reg.vecSpanVl (5 : TId).toNat) ∧ (vec 8 .int8 []).f (Reg.vecSpanVl (5 : TId).toNat) % 4 = 0 ∧
    (vec 9 .int8 []).f (Reg.vecSpanVl (5 : TId).toNat) % 4 ≠ 0 ∧
    (∃ g, wideFmt .int8 = some g ∧ (vec 9 .int8 []).f (Reg.vecSpanVl (5 : TId).toNat) * fmtBits g ≤ 262144) ∧
    (∃ g, dotFmt .int8 = some g) ∧ (4 : GReg).toNat % 2 = 0 ∧ (8 : GReg) ≠ 4 ∧ (8 : GReg).toNat ≠ (4 : GReg).toNat + 1 ∧
    (5 : GReg).toNat % 2 = 1 ∧ isComplex .int8 = isComplex .b64 ∧
    (vec 9 .int8 []).f (Reg.vecSpanVl (5 : TId).toNat) * fmtBits .b64 ≤ 131072 :=
  ⟨by unfold VectorReady FreeEngine; decide, by unfold VectorReady FreeEngine; decide, by decide, by decide, by decide,
    ⟨_, rfl, by decide⟩, ⟨_, rfl⟩, by decide⟩
/-- One element of binary32 at offset 0x1000 with stride 8, and at index 3 from 0xFF4. -/
def vecM (a : Nat) : State := vec 1 .b32 [(5, BitVec.ofNat 64 a), (6, 8)]
theorem wit_VectorMemory : ∀ a ∈ [0x1000, 0xFF4], VectorReady 5 .b32 (vecM a) ∧
    (vecM a).f (Reg.vecSpanVl (5 : TId).toNat) = 1 ∧ ((vecM a).core c5).getS 1 = seg 0x100000 1 3 ∧
    admits ((vecM a).tw (5 : TId).toNat) true 2 0 = true ∧ (((vecM a).core c5).getG 6).toNat % 4 = 0 ∧
    leNat (Tab.getAll 0 ((vecM a).tw (5 : TId).toNat).vregs ((6 : GReg).toNat * 16384) 4) = 3 ∧ Memory.wf (vecM a).mem = true := by
  unfold VectorReady FreeEngine; decide
theorem wit_VectorMemory_reaches : ∀ a ∈ [0x1000, 0xFF4], ∀ acc ∈ [Access.read, .write],
    Reaches (vecM a) 5 1 (seg 0x100000 1 3) acc 0x1000 4 0x101000 := by
  intro a h acc h'
  refine reaches_here ?_
  revert acc a
  unfold Sound NoRequests
  decide
theorem wit_VectorMemory_null : ((vecM 0x1000).core c5).getS 7 = {} ∧ (({} : Seg).null = true) := by decide

/-- Slot 3 has the shape of one row of 16 bytes, with EVT. -/
def stream (l : List (Nat × Dword)) : State := engG l (eng.modTw 5 (fun w => { w with slots := [(3, { shq := 15 + 2 ^ 24 })] }))
theorem wit_StreamWork_shape : let s := stream [(1, 0xFFFF), (2, 0x40000), (3, 0xFF03000005), (4, 0x04000000)]
    let w := s.tw (5 : TId).toNat
    let slot := Tab.get {} w.slots (3 : BitVec 4).toNat
    let k := s.core c5
    FreeEngine 5 .str s ∧ slot.stopped = 0 ∧ slot.aheadStop = false ∧ slot.row = 0 ∧ slot.byte = 0 ∧
    (fld (k.getG 3) 63 48 = 0 ∧ fld (k.getG 3) 31 26 = 0) ∧ fld (k.getG 4) 31 26 ≠ 0 ∧
    (k.getG 1).toNat + (0 : BitVec 11).toNat < 65536 ∧ 4 * 65536 ≤ (k.getG 2).toNat + (0 : BitVec 11).toNat := by
  unfold FreeEngine; decide
theorem wit_StreamWork_empty (j : Nat) : (Tab.get {} ((stream []).tw (5 : TId).toNat).slots j).fifo = [] := by
  have : ((stream []).tw (5 : TId).toNat).slots = [(3, { shq := 15 + 2 ^ 24 })] := rfl
  rw [this]
  by_cases h : j = 3 <;> simp [Tab.get, Tab.find, h]
/-- From 0x1100 to 0x1000. -/
def copies : State := stream [(5, 0x1000), (6, 0x1100)]
theorem wit_StreamWork_copy : let k := copies.core c5
    let slot := Tab.get {} (copies.tw (5 : TId).toNat).slots (3 : BitVec 4).toNat
    FreeEngine 5 .str copies ∧ Memory.wf copies.mem = true ∧ k.getS 1 = seg 0x100000 1 3 ∧ (k.getG 5).toNat = 0x1000 ∧
    (k.getG 6).toNat = 0x1100 ∧ OneRow slot.shq (seg 0x100000 1 3) 0x1000 16 ∧ OneRow slot.shq (seg 0x100000 1 3) 0x1100 16 ∧
    spanCheck (seg 0x100000 1 3) .write (0x1000, 0x1000 + 16 - 1) = none ∧
    spanCheck (seg 0x100000 1 3) .read (0x1100, 0x1100 + 16 - 1) = none ∧ bit slot.shq 24 = true := by
  unfold FreeEngine OneRow; decide
theorem wit_StreamWork_reaches : Reaches copies 5 (6 + (3 : BitVec 4).toNat) (seg 0x100000 1 3) .write 0x1000 16 0x101000 ∧
    Reaches copies 5 (6 + (3 : BitVec 4).toNat) (seg 0x100000 1 3) .read 0x1100 16 0x101100 :=
  ⟨reaches_here (by unfold Sound NoRequests; decide), reaches_here (by unfold Sound NoRequests; decide)⟩
theorem wit_StreamWork_waiting : let x : QEntry :=
      ⟨0, .insn (.stFill 5 .push 3 1 5 6), [(1, seg 0x100000 1 3)], [0x1000, 0x1100, 0, 15 + 2 ^ 24], 0, 0, 0, false, .due⟩
    x.segs = [((1 : R3).toNat, (copies.core c5).getS 1)] ∧ x.g = [(copies.core c5).getG 5, (copies.core c5).getG 6,
      (Tab.get {} (copies.tw (5 : TId).toNat).slots (3 : BitVec 4).toNat).shp,
      (Tab.get {} (copies.tw (5 : TId).toNat).slots (3 : BitVec 4).toNat).shq] := by decide

/-! The host window, memory, translation, migration. -/

theorem wit_HostWindowAnswers_step : run.stepOf (5 : TId).toNat = some (65536, step0) ∧ (5 : TId).toNat ∈ step0.towers := by decide
/-- A read that the core waits for, a posted write of a Tower, and one of a Keep. -/
def aTrack (w p : Bool) : Track := ⟨4, 0, 0x180000005000, 4, 0x180000005000, w, p, if w then [9, 0, 0, 9] else [], false, false, false, none⟩
def tracks (i : Nat) (w p : Bool) : State := { run.modTw i (fun x => { x with track := [aTrack w p] }) with
  hostMem := Tab.putAll 0 [] 0x5000 [1, 2, 3, 4, 5, 6, 7, 8] }
theorem wit_HostWindowAnswers : ∀ x ∈ [(5, 5, false, false), (5, 5, true, true), (127, 129, true, true)],
    let s := tracks x.2.1 x.2.2.1 x.2.2.2
    s.tracked x.1 (4 : BitVec 13).toNat = some (x.2.1, aTrack x.2.2.1 x.2.2.2) ∧
    s.place (aTrack x.2.2.1 x.2.2.2).fpa = .hostWin ∧ s.lateWrites = [] ∧ Memory.wf s.hostMem = true := by decide
/-- A device of a granule; one that is silent, one that is lost, a granule that is bad. -/
def devs (silent : Tab Bool) (lost : List Nat) (bad : List Nat) : State :=
  { runM with dev := { runM.dev with silent := silent.map (fun e => (e.1, 3)), lost := lost }
              bad := bad.map (fun g => (g, .poisoned)) }
theorem wit_ControllersAndDevices_request :
    (∃ d, runM.devOf 0x100044 = some d ∧ (devs [(d, true)] [] []).silent 0x100044 = true ∧ (devs [] [d] []).lost 0x100044 = true) ∧
    runM.lpaPlace 0x100044 = .device ∧ Memory.wf runM.mem = true ∧ runM.lost 0x100044 = false ∧ runM.silent 0x100044 = false ∧
    Tab.has (devs [] [] [0x100040 / 64]).bad (0x100044 / 64) = true := ⟨⟨_, rfl, by decide, by decide⟩, by decide⟩
def moving (k : Nat) : State := { runM with dev := { runM.dev with moved := some 7, copied := some k } }
/-- A page in the middle and the last page. -/
theorem wit_ControllersAndDevices_migration : Tab.sortedFrom 0 runM.dev.silent = true ∧
    (∀ k ∈ [2, runM.framesUsed - 1], (moving k).dev.moved = some 7 ∧ (moving k).dev.copied = some k ∧
      (moving k).dev.order.findIdx? (· = 7) = some 7) ∧ (moving 0).framesUsed ≤ (runM.framesUsed - 1) + 1 := by decide
theorem wit_ControllersAndDevices_scrub : runM.lpaPlace 0x100040 = .device ∧ Tab.has runM.bad (0x100040 / 64) = false ∧
    (∃ x, runM.devOf 0x100040 = some x) ∧ runM.lpaPlace 0x100000000008 = .store 0 ∧
    Tab.has runM.badWords (0x100000000008 / 8) = false := ⟨by decide, by decide, ⟨_, rfl⟩, by decide, by decide⟩

def leaf (fpa perm : Nat) : Dword := BitVec.ofNat 64 (fpa + perm * 8 + 3)
def aDva : Nat := 0x123456789000
def putEntry (m : List Host.Cell) (table level : Nat) (e : Nat) : List Host.Cell :=
  Tab.putAll 0 m (table + 8 * tableIdx level aDva) (leBytes 8 e)
/-- Page tables from 0x500000 down to a leaf of level 4. -/
def tables (lf : Dword) : List Host.Cell := putEntry (putEntry (putEntry (putEntry [] 0x500000 1 0x501001) 0x501000 2 0x502001)
  0x502000 3 0x503001) 0x503000 4 lf.toNat
def xlat (lf : Dword) : State := { run with mem := tables lf }.wr (Reg.xltRoot 3) 0x500001
theorem wit_walk (lf : Dword) (h : bit lf 0 = true ∧ bit lf 1 = true ∧ bit lf 6 = false)
    (hb : (xlat lf).badEntry 4 lf = false) (he : entryAt (xlat lf) (0x503000 + 8 * tableIdx 4 aDva) = lf)
    (hn : ∀ e ∈ [(0x500000, 1, 0x501001), (0x501000, 2, 0x502001), (0x502000, 3, 0x503001)],
      entryAt (xlat lf) (e.1 + 8 * tableIdx e.2.1 aDva) = BitVec.ofNat 64 e.2.2 ∧
      (xlat lf).badEntry e.2.1 (BitVec.ofNat 64 e.2.2) = false)
    (hu : ∀ a ∈ [0x500000 + 8 * tableIdx 1 aDva, 0x501000 + 8 * tableIdx 2 aDva, 0x502000 + 8 * tableIdx 3 aDva,
      0x503000 + 8 * tableIdx 4 aDva], (xlat lf).unreadable a 8 = false) : WalksTo (xlat lf) aDva 4 1 0x500000 4 lf := by
  simp only [List.mem_cons, List.not_mem_nil, or_false, forall_eq_or_imp, forall_eq] at hn hu
  obtain ⟨⟨h1, b1⟩, ⟨h2, b2⟩, h3, b3⟩ := hn
  obtain ⟨u1, u2, u3, u4⟩ := hu
  unfold WalksTo
  refine ⟨.inr u1, by rw [h1]; decide, by rw [h1]; exact b1, ?_⟩
  rw [h1, if_neg (by decide)]
  unfold WalksTo
  refine ⟨.inr u2, by erw [h2]; decide, by erw [h2]; exact b2, ?_⟩
  erw [h2, if_neg (by decide)]
  unfold WalksTo
  refine ⟨.inr u3, by erw [h3]; decide, by erw [h3]; exact b3, ?_⟩
  erw [h3, if_neg (by decide)]
  unfold WalksTo
  refine ⟨.inr u4, by erw [he]; exact h.1, by erw [he]; exact hb, ?_⟩
  erw [he]
  rw [if_pos h.2.1]
  exact ⟨h.2.2, rfl, rfl⟩
theorem wit_TableWalks_walk : let s := xlat (leaf 0x230000 7)
    s.enginesOn (5 : TId).toNat = true ∧ ColdFor (s.tw (5 : TId).toNat) 0 ∧ s.asidOf (5 : TId).toNat = 3 ∧
    bit (s.rd (Reg.xltRoot 3)) 0 = true ∧ fld (s.rd (Reg.xltRoot 3)) 44 12 * 4096 = 0x500000 ∧
    leafPermits (leaf 0x230000 7) .read = true := by unfold ColdFor; decide
theorem wit_TableWalks_leaf : WalksTo (xlat (leaf 0x230000 7)) aDva 4 1 0x500000 4 (leaf 0x230000 7) :=
  wit_walk _ (by decide) (by decide) (by decide) (by decide) (by decide)
theorem wit_TableWalks_hit : let e : TlbEntry := ⟨3, 4, aDva / 65536, leaf 0x230000 7⟩
    let s := run.modTw 5 (fun w => { w with tlbs := [(0, [e])] })
    s.enginesOn (5 : TId).toNat = true ∧ e ∈ Tab.get [] (s.tw (5 : TId).toNat).tlbs 0 ∧
    (Tab.get [] (s.tw (5 : TId).toNat).tlbs 0).find? (fun e => e.hits (s.asidOf (5 : TId).toNat) aDva) = some e ∧
    leafPermits e.pte .read = true := by decide
def aFault : XFault where
  id := none
  inTable := true
  held := false
  kind := .noRoot
  asid := 3
  handle := 65537
  region := 0
  addr := aDva
  level := 0
  adv := 0
  access := 1
  towers := 32
  engines := 1
  part := false
  count := 0
  members := [⟨5, 0⟩, ⟨5, 3⟩]
/-- The queue is on, its ring at the start of the window. -/
def faults (fs : List XFault) : State :=
  let s := (run.setF Reg.xltCtrlFqEn 1).wr Reg.xltFqBase 0x180000000000
  { s with xlt := { s.xlt with faults := fs } }
def rootless : State := (faults []).wr (Reg.xltRoot 3) 0x500000
theorem wit_TableWalks_root : rootless.enginesOn (5 : TId).toNat = true ∧ ColdFor (rootless.tw (5 : TId).toNat) 9 ∧
    bit (rootless.rd (Reg.xltRoot (rootless.asidOf (5 : TId).toNat))) 0 = false ∧ rootless.xlt.faults = [] ∧
    rootless.fqFull = false := by unfold ColdFor; decide
theorem wit_FaultQueue_enable : run.fb Reg.xltCtrlFqEn = false := by decide
theorem wit_FaultQueue_write : let s := faults [aFault, { aFault with id := some 4 }]
    s.xlt.faults = aFault :: [{ aFault with id := some 4 }] ∧ s.fqFull = false ∧
    inWindow (s.f Reg.xltFqBaseAddr * 64 + s.f Reg.xltFqProdProd % 4096 * 64) 64 = true ∧ s.lateWrites = [] := by decide
theorem wit_FaultQueue_resolve : (faults [aFault, { aFault with id := some 9 }]).xlt.faults.find?
    (fun f => f.inTable && decide (f.id = some (9 : Word).toNat)) = some { aFault with id := some 9 } := by decide
theorem wit_FaultQueue_stale : ∀ f ∈ (faults [aFault]).xlt.faults, ¬ (f.inTable = true ∧ f.id = some (9 : Word).toNat) := by decide
/-- Room for a prefetch, and none because the queue is off. -/
theorem wit_FaultQueue_prefetch : ((faults [aFault]).tw (5 : TId).toNat).step.isSome = true ∧
    ((faults [aFault]).fb Reg.xltCtrlFqEn = true ∧ (faults [aFault]).fqUsed + (faults [aFault]).unwritten.length < 4096 ∧
      ∀ f ∈ (faults [aFault]).unwritten, f.held = false) ∧ ¬ run.fb Reg.xltCtrlFqEn = true := by decide
theorem wit_RootsAndInvalidation_root : run.inDevOrWin (fld (0x600001 : Dword) 44 12 * 4096) 4096 = true ∧
    run.inDevOrWin (fld (0x100000000001 : Dword) 44 12 * 4096) 4096 = false := by decide
/-- Sizes of 2^16 and 2^48 at 0, one at an odd 64 KiB, and one too small. -/
theorem wit_RootsAndInvalidation_go : run.fb Reg.xltInvCtrlGo = false ∧ run.f Reg.xltInvAddrAddr * 65536 % 2 ^ 48 = 0 ∧
    (run.setF Reg.xltInvAddrAddr 3).f Reg.xltInvAddrAddr * 65536 % 2 ^ 17 ≠ 0 ∧
    fld (1 + 2 * 16 : Dword) 6 1 = 16 ∧ fld (1 + 2 * 48 : Dword) 6 1 = 48 ∧ fld (1 + 2 * 15 : Dword) 6 1 < 16 := by decide
def invalidates (track : List Track) : State :=
  let s := run.modTw 5 (fun w => { w with tlbs := [(0, [⟨3, 4, aDva / 65536, leaf 0x230000 7⟩])], track := track })
  { s with xlt := { s.xlt with inv := some ⟨false, 3, aDva / 65536 * 65536, 65536⟩ } }
theorem wit_RootsAndInvalidation_waits :
    let s := invalidates [⟨4, 0, 0x180000005000, 4, aDva, false, false, [], false, false, false, none⟩]
    s.xlt.inv = some ⟨false, 3, aDva / 65536 * 65536, 65536⟩ ∧ (s.tw 5).run ≠ .retired ∧ s.asidOf 5 = 3 ∧
    ∃ e ∈ (s.tw 5).track, e.done = false ∧ e.dva < aDva / 65536 * 65536 + 65536 ∧ aDva / 65536 * 65536 < e.dva + e.len := by decide
theorem wit_RootsAndInvalidation_completes : let s := invalidates []
    (∀ n, (s.tw n).usesRange (aDva / 65536 * 65536) 65536 = false) ∧ ∀ n, (s.tw n).plans = [] := by
  have h : ∀ n, (invalidates []).tw n = (invalidates []).tw 5 ∨ (invalidates []).tw n = {} := by
    intro n
    obtain ⟨x, e⟩ : ∃ x, (invalidates []).towers = [(5, x)] := ⟨_, rfl⟩
    by_cases h : n = 5
    · exact .inl (by rw [h])
    · exact .inr (by unfold State.tw; rw [e]; simp [Tab.get, Tab.find, h])
  constructor <;> intro n <;> rcases h n with h | h <;> rw [h] <;> decide

def aMove (frames : List Nat) : Migration := ⟨7, 3, aDva / 65536 * 65536, false, frames⟩
/-- The leaf says that its page is being moved. -/
def moves (frames : List Nat) : State := { xlat (leaf 0x230040 7) with xlt := { run.xlt with migs := [aMove frames] } }
theorem wit_MigratedPage : let s := moves [0x250000]
    s.keepLeaf 3 (aDva / 65536 * 65536) = some (0x503000 + 8 * tableIdx 4 aDva, 4, leaf 0x230040 7) ∧
    leafFpa 4 (leaf 0x230040 7) (aDva / 65536 * 65536) = 0x230000 ∧ 0x230000 / 2 ^ 45 = s.self ∧
    (∀ x ∈ [(0x230000, 0x10000), (0x250000, 0x10000), (0x503000 + 8 * tableIdx 4 aDva, 8)],
      x.1 + x.2 ≤ s.f Reg.memSizeSize ∧ x.1 + x.2 ≤ 0x100000000000) ∧
    0x503000 + 8 * tableIdx 4 aDva ≥ 0x250000 + 0x10000 ∧ Memory.wf s.mem = true ∧ s.bad = [] ∧
    s.invWaits false 3 (aDva / 65536 * 65536) 0x10000 = false ∧ aDva / 65536 * 65536 % 0x10000 = 0 ∧ 0x250000 % 0x10000 = 0 := by decide
theorem wit_MigratedPage_answers (y : Nat) : (moves [0x250000]).lost y = false ∧ (moves [0x250000]).silent y = false := by
  have l : (moves [0x250000]).dev.lost = [] := rfl
  have q : (moves [0x250000]).dev.silent = [] := rfl
  constructor
  · unfold State.lost; split <;> simp [l]
  · unfold State.silent; split <;> simp [q, Tab.has]
/-- A second page is due after this one, and an access through the old translation holds it up. -/
theorem wit_MigratedPage_more : let s := moves [0x250000, 0x260000]
    let s' := s.modTw 5 (fun w => { w with track := [⟨4, 0, 0x180000005000, 4, aDva, false, false, [], false, false, false, none⟩] })
    s.xlt.migs = [aMove [0x250000, 0x260000]] ∧ s.invWaits false 3 (aDva / 65536 * 65536) 0x10000 = false ∧
    s'.invWaits false 3 (aDva / 65536 * 65536) 0x10000 = true := by decide

/-! The fabric, collectives. -/

/-- Module 0x101 at (1, 0, 1) of a fabric of 3 × 1 × 2, with ports in the states given. -/
def ports (l : List (Nat × Nat)) : State := l.foldl (fun (s : State) (e : Nat × Nat) => s.setF (Reg.gwlPortState e.1) e.2)
  ((((run.setF Reg.gwlIdXs 3).setF Reg.gwlIdYs 1).setF Reg.gwlIdZs 2).setF Reg.gwlIdModule 0x101)
def aRead : Packet := { aPacket with type := 1, data := [] }
def aMessage : Packet := { aRead with type := 8, arg := 7 * 256 }
def sent (seq kind : Nat) : SentFrame := ⟨seq, kind, if kind = 0 then 1 else 0, if kind = 0 then pktToSlots aRead else [], 0⟩
def aPort : Port := { txSeq := 6, rxSeq := 9, replay := [sent 3 0, sent 4 2, sent 5 0], txq := [aMessage], held := [aRead] }
/-- A port whose replay buffer is full. -/
def stuck : Port := { txSeq := 1030, replay := List.replicate 1024 (sent 6 2) }
def withPort (p : Nat) (x : Port) (s : State) : State := s.setPort p x
theorem wit_PortsAndDeadPorts_states : ∀ st ∈ [0, 1, 2, 3, 4, 6], (ports [(0, st)]).portState 0 = st := by decide
/-- Port 0 trains, with its sibling 6 free of its traffic, and with it still handing it over. -/
theorem wit_PortsAndDeadPorts_training : (ports [(0, 1)]).portState 0 ∉ [2, 3, 5, 7] ∧ (ports [(0, 1)]).handing 0 = false ∧
    (withPort 6 { hand := [(0, 4)] } (ports [(0, 4), (6, 2)])).handing 0 = true ∧
    (ports [(0, 1)]).neighbour (ports [(0, 1)]).self 0 < 4096 := by decide
theorem wit_PortsAndDeadPorts_replay : ((withPort 0 aPort (ports [(0, 2)])).port 0).replay ≠ [] ∧
    (withPort 0 aPort (ports [(0, 2)])).portState 0 ∈ [2, 3] ∧ ((ports [(0, 2)]).port 0).replay = [] := by decide
theorem wit_PortsAndDeadPorts_handover :
    let s := withPort 6 { stuck with hand := [(0, 9)], held := [aRead] } (withPort 0 aPort (ports [(0, 4), (6, 2)]))
    s.portState 0 ∈ [4, 5] ∧ (range 0 18).find? (fun q => (s.port q).hand.any (fun h => decide (h.1 = 0))) = some 6 ∧
    1024 ≤ (s.port 6).replay.length := by decide
theorem wit_PortsAndDeadPorts_none : (∀ q < 18, ∀ h ∈ ((ports [(0, 4)]).port q).hand, h.1 ≠ 0) ∧
    (ports [(0, 4)]).portState 0 ∈ [1, 2, 3, 4] := by decide

/-- A frame with its CRC. -/
def frameOf (head : Nat) (slots : List Qword) : Frame :=
  let f : Frame := { head := BitVec.ofNat 64 head, slots := slots, pad := 0, crc := 0, fecOk := true }
  { f with crc := BitVec.ofNat 32 (crc32 (frameBytes f)) }
/-- The next data frame, which acknowledges frame 4; one out of sequence; an idle one; one with NAK whose ACK is unknown; one
that fails. -/
def frames : List Frame := [frameOf (10 * 2 ^ 52 + 4 * 2 ^ 40 + 2 ^ 21) (pktToSlots aRead),
  frameOf (11 * 2 ^ 52 + 4 * 2 ^ 40 + 2 ^ 21) (pktToSlots aRead), frameOf (4 * 2 ^ 40 + 2 ^ 36) [],
  frameOf (9 * 2 ^ 40 + 2 ^ 39 + 2 ^ 36) []]
theorem wit_LinkFrames_port : (withPort 0 aPort (ports [(0, 2)])).portUp (0 : BitVec 5).toNat = true := by decide
theorem crcBits_bound (poly n x r : Nat) (hp : poly < 2 ^ 32) (hr : r < 2 ^ 32) : crcBits poly n x r < 2 ^ 32 := by
  induction n generalizing x r with
  | zero => exact hr
  | succ n ih =>
    unfold crcBits
    refine ih _ _ ?_
    have h : r / 2 < 2 ^ 32 := by omega
    unfold crcBit
    split
    · exact h
    · exact Nat.xor_lt_two_pow h hp
theorem crc32_bound (bs : List Byte) : crc32 bs < 2 ^ 32 := by
  refine Nat.xor_lt_two_pow ?_ (by decide)
  suffices h : ∀ r < 2 ^ 32, bs.foldl (fun r b => crcBits 0xEDB88320 8 b.toNat r) r < 2 ^ 32 from h _ (by decide)
  induction bs with
  | nil => exact fun r h => h
  | cons b bs ih => exact fun r h => ih _ (crcBits_bound _ _ _ _ (by decide) h)
theorem wit_LinkFrames_good (head : Nat) (slots : List Qword) : (frameOf head slots).fecOk = true ∧
    crc32 (frameBytes (frameOf head slots)) = (frameOf head slots).crc.toNat :=
  ⟨rfl, by simp only [frameOf, frameBytes, BitVec.toNat_ofNat]; exact (Nat.mod_eq_of_lt (crc32_bound _)).symm⟩
theorem wit_LinkFrames_kinds : frames.map (fun f => (bit f.head 39, fld f.head 38 36, fld f.head 63 52, fld f.head 51 40))
    = [(false, 0, 10, 4), (false, 0, 11, 4), (false, 1, 0, 4), (true, 1, 0, 9)] ∧ (aPort.rxSeq + 1) % 4096 = 10 ∧
    aPort.replay.findIdx? (fun r => decide (r.seq = 4)) = some 1 ∧
    aPort.replay.findIdx? (fun r => decide (r.seq = 9)) = none := by decide
theorem wit_LinkFrames_failed : ({ frameOf 0 [] with fecOk := false } : Frame).fecOk ≠ true := by decide

/-- Every port is full, so that what is routed waits there. -/
def fullPorts (l : List (Nat × Nat)) : State := (List.range 18).foldl (fun (s : State) (p : Nat) => s.setPort p stuck) (ports l)
theorem wit_PacketsRouted_full : ∀ q < 18, 1024 ≤ ((fullPorts [(0, 2)]).port q).replay.length ∧
    ((fullPorts [(0, 2)]).port q).hand = [] := by decide
/-- Home; away with the port of the direction in use, with only the other way round, and with neither. -/
theorem wit_PacketsRouted : (ports []).routeDim 0x101 = none ∧
    (∃ d, (ports [(0, 2), (1, 2), (2, 2)]).routeDim 0x001 = some d) := ⟨by decide, _, rfl⟩
theorem wit_PacketsRouted_ways : ∃ d, (ports []).routeDim 0x001 = some d ∧
    let o := (ports []).dirTo 0x001 d
    (ports [(o, 2)]).usable o ≠ [] ∧ (ports [((o + 3) % 6, 2)]).usable o = [] ∧
    ((ports [((o + 3) % 6, 2)]).setF Reg.gwlCtrlDetourEn 1).usable ((o + 3) % 6) ≠ [] ∧
    ((ports [((o + 3) % 6, 2)]).setF Reg.gwlCtrlDetourEn 1).fb Reg.gwlCtrlDetourEn = true ∧
    ((ports []).setF Reg.gwlCtrlDetourEn 0).fb Reg.gwlCtrlDetourEn = false := ⟨_, rfl, by decide⟩
theorem wit_PacketsRouted_types : aRead.type ∈ ([1, 2] : List (BitVec 4)) ∧ aPacket.type ∈ ([3, 4, 5, 6] : List (BitVec 4)) ∧
    (0 : BitVec 4) ∉ ([8, 9, 10] : List (BitVec 4)) ∧ aPacket.detour.toNat < 3 := by decide
theorem wit_PacketsRouted_received :
    let s := withPort 8 { aPort with rx := [aPacket, aRead] } (ports [(8, 2)])
    [2, 2 + 6, 2 + 12].find? (fun r => (s.port r).rx.contains { aRead with dest := 0x101 }) = some 8 ∧
    s.routeDim ({ aRead with dest := 0x101 } : Packet).dest.toNat = none := by decide

/-- Granules of device memory and of a store that read, one that does not, and a place that is none. -/
theorem wit_RemoteTransactions_home : runM.lpaPlace 0x100040 = .device ∧ runM.unreadable 0x100040 64 = false ∧
    runM.lpaPlace (storeBase 5 + 0x80) = .store 5 ∧ Memory.wf runM.mem = true ∧ runM.lost 0x100040 = false ∧
    runM.silent 0x100040 = false ∧ Tab.has runM.bad (0x100040 / 64) = false ∧
    (devs [] [] [0x100040 / 64]).unreadable 0x100040 64 = true ∧ runM.lpaPlace 0x1ABCDE000000 = .hostWin := by decide
def remoteTrack (w p : Bool) : Track := ⟨4, 0, 7 * 2 ^ 45 + 0x100044, 4, 0x77000, w, p, if w then [9, 0, 0, 9] else [], false, false, false, none⟩
theorem wit_RemoteTransactions_answers : ∀ x ∈ [(false, false), (true, false), (true, true)],
    let s := run.modTw 5 (fun w => { w with track := [remoteTrack x.1 x.2] })
    s.tracked aPacket.tower.toNat aPacket.tag.toNat = some (5, remoteTrack x.1 x.2) ∧
    s.place (remoteTrack x.1 x.2).fpa = .remote 7 := by decide
theorem wit_RemoteTransactions_codes : (0x304 : BitVec 17).toNat % 256 = 4 ∧ (1 : BitVec 17).toNat % 256 ≠ 4 := by decide

def aSlot : CollSlot where
  bound := true
  chan := 65537
  localN := 2
  origin := 0
  ext := 0x101
  groupId := 9
  gen := 6
  dst := 0x400000
/-- Slot 3 of the module; the Tower arrives by its g1. -/
def coll (c : CollSlot) : State := { (ports []).modCore c5 (fun k => { k with g := [(1, 0x30003)] }) with colls := [(3, c)] }
theorem wit_CollectiveArrivals : (coll aSlot).issuing c5 = true ∧
    ((coll aSlot).core c5).getG 1 + (0 : BitVec 13).setWidth 64 = 0x30000 + 3 ∧ (coll aSlot).stepOf (5 : TId).toNat = some (65536, step0) ∧
    Quiet c5 (coll aSlot) ∧ CanTrap c5 (coll aSlot) := by unfold Quiet NoRequests CanTrap; decide
theorem wit_CollectiveArrivals_clean : AllClean ((coll aSlot).core c5) := fun i e h => by
  have : ((coll aSlot).core c5).l1 = [] := rfl
  simp [this] at h
/-- The first of two, the last of one whose neighbour has not come, the last of a single module, and one of another channel. -/
theorem wit_CollectiveArrivals_joins : 65536 / 65536 = aSlot.chan % 65536 ∧ aSlot.up = false ∧ aSlot.arrived = [] ∧ 1 < aSlot.localN ∧
    (∃ m ∈ (coll aSlot).collKids aSlot, m.1 ∉ aSlot.got) ∧
    (coll { aSlot with origin := 0x101, ext := 0 }).collParent { aSlot with origin := 0x101, ext := 0 } = none ∧
    (coll { aSlot with origin := 0x101, ext := 0 }).collKids { aSlot with origin := 0x101, ext := 0 } = [] ∧ 65536 / 65536 ≠ (65538 : Nat) % 65536 := by decide
def aMsg (m : BitVec 12) : CollMsg where
  slot := 3
  fromModule := m
  groupId := 9
  gen := 6
  stampRoll := 5
  stampPhase := 6
  stampFine := 7
  stampModule := m
  block := []
  broken := false
  bind := ⟨0, 0, 0, 0, 0, 0x101⟩
  fault := false
/-- A slot that is not bound, one that waits for a neighbour, one that has heard it. -/
theorem wit_CollectiveMessages_up : ((coll {}).coll 3).bound = false ∧ ((coll aSlot).coll 3).bound = true ∧
    ((coll aSlot).coll 3).up = false ∧ ((coll aSlot).coll 3).fault = false ∧
    (∃ k ∈ (coll aSlot).collKids aSlot, k.1 ∉ aSlot.got ∧ (aMsg (BitVec.ofNat 12 k.1)).fromModule.toNat = k.1 ∧
      (aMsg (BitVec.ofNat 12 k.1)).groupId.toNat = aSlot.groupId) ∧
    5 ∈ ({ aSlot with got := [5] } : CollSlot).got := by decide
/-- A member whose parent is its neighbour in X. -/
def member : CollSlot := { aSlot with ext := 0x100, up := true, sentUp := true }
theorem wit_CollectiveMessages_down : ((coll member).collParent member).map (·.1) = some 0x100 ∧ Memory.wf (coll member).mem = true ∧
    member.dst + 64 ≤ (coll member).f Reg.memSizeSize ∧ member.dst + 64 ≤ 0x100000000000 ∧
    (∀ y < 64, (coll member).lost (member.dst + y) = false ∧ (coll member).silent (member.dst + y) = false ∧
      Tab.has (coll member).bad ((member.dst + y) / 64) = false) ∧ Tab.sortedFrom 0 (coll member).bad = true := by decide

/-- The vector unit stopped by an error. -/
theorem wit_VectorMasksAndResults_stopped : let s := eng.modTw 5 (fun w => { w with sVec := .error })
    s.issuing c5 = true ∧ EnginesIdle (s.tw (5 : TId).toNat) ∧ (s.tw (5 : TId).toNat).sVec = .error := by unfold EnginesIdle; decide
/-- What a requester left behind, and a request already abandoned. -/
theorem wit_HostWindowAnswers_gone : ∀ e ∈ [{ aTrack true false with orphan := true }, { aTrack false false with gone := some 3 }],
    let s := run.modTw 5 (fun x => { x with track := [e] })
    s.tracked 5 (4 : BitVec 13).toNat = some (5, e) ∧ s.place e.fpa = .hostWin ∧ (s.core (trackCore 5)).victim = none := by decide
theorem wit_ControllersAndDevices_home : runM.meshRuns = true ∧ runM.lpaPlace 0x100000000048 = .store 0 ∧
    runM.badIn 0x100000000048 2 = false ∧
    ({ runM with badWords := [(0x100000000048 / 8, .uncorrectable)] } : State).badIn 0x100000000048 2 = true ∧
    ({ runM with rel := { runM.rel with scrubFix := [(0x100000000048 / 8, 2)] } } : State).lpaPlace 0x100000000048 = .store 0 := by decide
theorem wit_TableWalks_engines : ∀ r ∈ [tlbOf .vector, tlbOf .dome, tlbOf .tile, tlbOf (.stream 3)], ColdFor (rootless.tw (5 : TId).toNat) r ∧
    EnginesIdle (rootless.tw (5 : TId).toNat) := by unfold ColdFor EnginesIdle; decide
theorem wit_RootsAndInvalidation_left (n : Nat) : ((invalidates []).tw n).leftRange false 3 (aDva / 65536 * 65536) 65536 = false := by
  obtain ⟨x, e⟩ : ∃ x, (invalidates []).towers = [(5, x)] := ⟨_, rfl⟩
  by_cases h : n = 5
  · rw [h]; decide
  · unfold State.tw; rw [e]; simp [Tab.get, Tab.find, h, Tower.leftRange]
/-- A request without an answer of a step that has left the Tower. -/
theorem wit_RootsAndInvalidation_abandoned :
    let s := (invalidates [⟨4, 0, 0x180000005000, 4, aDva, true, true, [], false, false, true, some 3⟩])
    ∃ e ∈ (s.tw 5).track, e.done = false ∧ e.gone.getD (s.asidOf 5) = 3 ∧ e.dva < aDva / 65536 * 65536 + 65536 ∧
      aDva / 65536 * 65536 < e.dva + e.len := by decide
theorem wit_MigratedPage_plans (n : Nat) : ((moves [0x250000]).tw n).plans = [] := by
  obtain ⟨x, e⟩ : ∃ x, (moves [0x250000]).towers = [(5, x)] := ⟨_, rfl⟩
  by_cases h : n = 5
  · rw [h]; decide
  · unfold State.tw; rw [e]; simp [Tab.get, Tab.find, h]
theorem wit_fabric : run.meshRuns = true ∧ ∀ l ∈ [[], [(0, 1)], [(0, 2)], [(0, 4)]], (ports l).meshRuns = true ∧ (fullPorts l).meshRuns = true := by
  decide
/-- A partner that has lost power, with a message to it unsent and a group that it belongs to in progress. -/
theorem wit_PortsAndDeadPorts_power : let c : CollSlot := { aSlot with got := [0x100] }
    let s := { withPort 3 aPort (ports [(3, 4)]) with colls := [(7, c)] }
    s.portState 3 ∈ [1, 2, 3, 4] ∧ (∃ k ∈ (s.port 3).unsent, k.type ∈ ([8, 9] : List (BitVec 4))) ∧ c.bound = true ∧ c.inProgress = true ∧
    s.inBox c (s.neighbour s.self (3 % 6)) = true := by decide
/-- A packet accepted before the link trained anew. -/
theorem wit_PacketsRouted_old : let pk : Packet := { aRead with dest := 0x101 }
    let s := withPort 8 { aPort with old := [aPacket, pk] } (ports [(8, 2)])
    (∀ r ∈ [2, 2 + 6, 2 + 12], pk ∉ (s.port r).rx) ∧ [2, 2 + 6, 2 + 12].find? (fun r => (s.port r).old.contains pk) = some 8 ∧
    s.routeDim pk.dest.toNat = none := by decide
/-- An answer that nothing waits for: its tag is that of a request that timed out. -/
theorem wit_RemoteTransactions_late : let s := run.modTw 5 (fun w => { w with late := [4] })
    s.meshRuns = true ∧ s.tracked aPacket.tower.toNat aPacket.tag.toNat = none ∧ aPacket.tag.toNat ∈ (s.tw 5).late ∧
    5 ∈ trackersOf aPacket.tower.toNat := by decide
/-- A sound message from below, a block where none is allowed, and a notice of a fault with a step of the generation resident. -/
theorem wit_CollectiveMessages_notice : let c : CollSlot := { aSlot with chan := 65537, arrived := [⟨5, 0, 65536⟩] }
    let s := { coll c with steps := [(65536, { step0 with stay := 3 })] }
    s.meshRuns = true ∧ (aMsg 0x100).bind = c.binding ∧ (s.coll 3).bound = true ∧ c.fault = false ∧ (aMsg 0x100).groupId.toNat = c.groupId ∧
    (∃ h ∈ s.collTies c, h.1 = (aMsg (BitVec.ofNat 12 h.1)).fromModule.toNat) ∧ c.inProgress = true ∧ s.collLive c = true := by decide
theorem wit_CollectiveMessages_takes : member.takes [] = true ∧ ({ member with op := 2, m := 8 } : CollSlot).takes (List.replicate 64 1) = true ∧
    ([1] : List Byte) ≠ [] := by decide

/-! Rolls and steps. -/

/-- Roll 100 at a phase, with the configuration in force. -/
def rollAt (phase cfg : Nat) (s : State) : State :=
  let s := (s.setF Reg.rollCountCount 100).setF Reg.rollPhasePhase phase
  { s with roll := { s.roll with cfg := BitVec.ofNat 64 cfg } }
theorem wit_quiet_module : QuietModule (rollAt 1023 1 up) := by unfold QuietModule Untroubled; decide
theorem wit_RollBoundary : (rollAt 1023 1 up).keepsAct = true ∧ ({ up with alive := false } : State).keepsAct = false ∧
    TimelyDecisions aSample ∧ (rollAt 1023 1 up).fb Reg.keepAdmCtrlEn = false := by unfold TimelyDecisions; decide
def rollFrame (hop roll phase : Nat) : RollFrame :=
  { hop := BitVec.ofNat 8 hop, roll := BitVec.ofNat 64 roll, crc := BitVec.ofNat 16 (crc16 hop roll), gap := 1024, atPhase := phase }
/-- Valid frames of 0, 2 and 62 hops and one of 63; one with a wrong CRC; a source and a follower. -/
theorem wit_RollsAligned_frames : ∀ h ∈ [0, 2, 62, 63], (rollFrame h 500 30).crc.toNat = crc16 h 500 ∧ (rollFrame h 500 30).hop.toNat = h := by
  decide
theorem wit_RollsAligned_wrong : ({ rollFrame 2 500 30 with crc := 0 } : RollFrame).crc.toNat ≠ crc16 2 500 := by decide
theorem wit_RollsAligned_roles : bit (rollAt 30 2 run).roll.cfg 0 = false ∧ bit (rollAt 30 1 run).roll.cfg 0 = true ∧
    (rollAt 30 2 run).roll.stepped = false ∧ bit (rollAt 30 2 run).roll.cfg 1 = true ∧
    (((rollAt 30 2 run).setF Reg.rollStatInLock 1).fb Reg.rollStatInLock = true) := by decide
/-- The first frame's boundary: 24 rc later, and not already there. -/
theorem wit_RollsAligned_move : let s := rollAt 30 2 run
    ((30 : Int) - 3 * 2) % 1024 = 24 ∧ s.f Reg.rollPhasePhase < 1024 + 24 := by decide
/-- A member of a fabric whose parent is its neighbour on port 0. -/
def follower (t1 : Option Dword) : State :=
  let s := rollAt 300 4 (fullPorts [(0, 2), (1, 2), (2, 2), (3, 2), (4, 2), (5, 2)])
  { s with roll := { s.roll with t1 := t1, gaps := [true, true] } }
theorem wit_RollsAligned_exchange : (follower none).source = false ∧ bit (follower none).roll.cfg 2 = true ∧
    (follower none).parentDir.isSome = true := by decide
theorem wit_RollsAligned_request : ((range 0 6).find? (fun d => decide ((follower none).neighbour (follower none).self d = 0x102) &&
    decide ((follower none).usable d ≠ []))).isSome = true := by decide
/-- Offsets at the edges of 3/64 rc, and just beyond. -/
theorem wit_RollsAligned_reply : (follower (some 0xFFFE)).source = false ∧ (follower (some 0xFFFE)).roll.t1 = some 0xFFFE ∧
    ((0x10004 - 0xFFFE : Int) - (0x10004 - 0x10004)) / 2 = 3 ∧ ((0x10006 - 0xFFFE : Int) - (0x10004 - 0x10004)) / 2 = 4 ∧
    (100 : Dword).toNat = (follower (some 0xFFFE)).now ∧ ∀ b ∈ (follower none).roll.gaps, b = true := by decide
/-- A report due, with room in the ring and with none; in the window and in device memory. -/
def reports (base prod : Nat) : State :=
  let s := ((((run.wr Reg.rollRptBase (BitVec.ofNat 64 base)).setF Reg.rollRptCtrlEn 1).setF Reg.rollRptCtrlLog2n 7).setF
    Reg.rollRptProdProd prod).setF Reg.rollRptConsCons 3
  { s with roll := { s.roll with due := some (List.replicate 64 7) } }
theorem wit_RollReports : run.fb Reg.rollRptCtrlEn = false ∧ bit (1 + 2 * 6 : Dword) 0 = true ∧
    (reports 0x200000 5).roll.due = some (List.replicate 64 7) ∧ (reports 0x200000 5).fb Reg.rollRptCtrlEn = true ∧
    (∀ p ∈ [5, 131], let s := reports 0x180000001000 p
      ((s.f Reg.rollRptProdProd + 2 ^ 32 - s.f Reg.rollRptConsCons) % 2 ^ 32 = 2 ^ s.f Reg.rollRptCtrlLog2n) = (p = 131)) ∧
    inWindow (0x180000001000 + 5 * 64) 64 = true ∧ inWindow (0x200000 + 5 * 64) 64 = false := by
  refine ⟨by decide, by decide, by decide, by decide, ?_, by decide⟩
  intro p h
  simp only [List.mem_cons, List.not_mem_nil, or_false] at h
  rcases h with rfl | rfl <;> exact propext (by decide)
/-- Device memory at an address answers. -/
theorem answers_at (s : State) (a n : Nat) (h : a + n ≤ s.f Reg.memSizeSize) (h' : a + n ≤ 0x100000000000) (hl : s.dev.lost = [])
    (hs : s.dev.silent = []) (hb : s.bad = []) : Answers s a n := by
  refine ⟨h, h', fun y _ => ⟨?_, ?_, by simp [hb, Tab.has]⟩⟩
  · unfold State.lost; split <;> simp [hl]
  · unfold State.silent; split <;> simp [hs, Tab.has]
theorem wit_RollReports_device : Answers (reports 0x200000 5) (0x200000 + 5 * 64) 64 :=
  answers_at _ _ _ (by decide) (by decide) rfl rfl rfl

/-- The 128 bytes of a step that needs so many Towers. -/
def stepBytes (need budget flags named : Nat) : List Byte :=
  leBytes 4 0x400 ++ [BitVec.ofNat 8 (need - 1), BitVec.ofNat 8 budget, 1, BitVec.ofNat 8 flags] ++ leBytes 8 0xABCDEF ++ leBytes 8 11
    ++ leBytes 8 12 ++ leBytes 8 13 ++ leBytes 8 14 ++ leBytes 8 0x10000 ++ leBytes 8 (0xFFFF * 2 ^ 16 + 16 + 5) ++ leBytes 8 0x20000
    ++ leBytes 8 (0xFFFF * 2 ^ 16 + 16 + 3) ++ leBytes 8 0 ++ leBytes 8 0 ++ leBytes 16 named ++ leBytes 16 0
/-- Channel 1 has a descriptor before it at index 19. -/
def queued (bytes : List Byte) : State := { (run.setF Reg.keepStatTowers 128) with
  mem := Tab.putAll 0 [] (0x300000 + 128 * 3) bytes
  chans := [(1, { chan0 with sqProd := 24, sqCons := 19, cqCons := 5, posted := 7 })] }
theorem wit_StepsAccepted_doorbell : let c := (queued []).chan 1
    c.live = true ∧ c.gen = 1 ∧ c.state ≠ 2 ∧ ¬ 2 ^ c.sqLog < (35 + 65536 - c.sqCons) % 65536 ∧ 2 ^ c.sqLog < (36 + 65536 - c.sqCons) % 65536 ∧
    ¬ (c.posted + 65536 - c.cqCons) % 65536 < (7 + 65536 - c.cqCons) % 65536 ∧
    (c.posted + 65536 - c.cqCons) % 65536 < (8 + 65536 - c.cqCons) % 65536 := by decide
theorem wit_StepsAccepted_gate : (queued []).gateOpen 1 = true ∧ run.gateOpen 1 = false ∧
    inWindow (0x180000000000 + 128 * 3) 128 = true := by decide
theorem wit_StepsAccepted_answers (b : List Byte) : Answers (queued b) (0x300000 + 128 * 3) 128 :=
  answers_at _ _ _ (show _ ≤ (queued []).f Reg.memSizeSize by decide) (by decide) rfl rfl rfl
/-- A good descriptor, a wrong budget, too many Towers named, a malformed flag. -/
theorem wit_StepsAccepted_descriptors : (stepBytes 2 3 0 0).length = 128 ∧ (queued []).descMalformed (stepBytes 2 3 0 0) = false ∧
    (queued []).descMalformed (stepBytes 2 3 0x80 0) = true ∧ (queued []).descMalformed (stepBytes 2 0 0 0) = false ∧
    leAt (stepBytes 2 0 0 0) 5 1 = 0 ∧ leAt (stepBytes 2 3 0 0) 0x58 2 + leAt (stepBytes 2 3 0 0) 0x5A 2 = 0 := by decide
def aStep (towers : List Nat) : StepSt := { step0 with desc := stepBytes 2 3 0 0, towers := towers, phase := .waiting }
def stepsAt (towers : List Nat) (r : Nat → Run) : State := { runM with
  chans := [(1, { chan0 with sqProd := 24, sqCons := 20, cqCons := 5, posted := 7 })]
  steps := [(65536 + 19, aStep towers)]
  towers := towers.map (fun u => (u, { tower0 with run := r u, step := some (65536 + 19) })) }
theorem wit_StepsRunAndEnd_dispatch : Tab.find (stepsAt [] (fun _ => .free)).steps (65536 + 19) = some (aStep []) ∧
    [0, 127].Pairwise (· < ·) ∧ ∀ x ∈ [0, 127], x < 128 := by decide
theorem wit_StepsRunAndEnd_end : let s := stepsAt [5, 9] (fun _ => .running)
    Tab.find s.steps (65536 + 19) = some (aStep [5, 9]) ∧ Tab.sortedFrom 0 s.steps = true ∧ (s.chan 1).state ≠ 3 ∧
    s.rel.retireLater = [] ∧ (∀ u ∈ (aStep [5, 9]).towers, u < 128 ∧ s.fb (Reg.twrStatMchk u) = false) ∧ Memory.wf s.mem = true ∧
    Tab.sortedFrom 0 s.bad = true := by decide
theorem wit_StepsRunAndEnd_answers : Answers (stepsAt [5, 9] (fun _ => .running)) (0x301000 + 32 * 7) 32 :=
  answers_at _ _ _ (by decide) (by decide) rfl rfl rfl
theorem wit_StepsRunAndEnd_save : let s := stepsAt [5, 9] (fun u => if u = 5 then .saving else .running)
    (s.tw 5).step = some (65536 + 19) ∧ (s.tw 5).run = .saving ∧ s.fb (Reg.twrStatMchk 5) = false ∧ Quiet c5 s ∧ EnginesIdle (s.tw 5) ∧
    (s.tw 5).plans = [] ∧ (s.tw 5).begun = [] ∧ (s.tw 5).turPart = none ∧ Memory.wf s.mem = true ∧ (s.tw 9).run ≠ .saving := by
  unfold Quiet NoRequests EnginesIdle; decide
theorem wit_StepsRunAndEnd_clean : AllClean ((stepsAt [5, 9] (fun u => if u = 5 then .saving else .running)).core c5) := fun i e h => by
  have : ((stepsAt [5, 9] (fun u => if u = 5 then .saving else .running)).core c5).l1 = [] := rfl
  simp [this] at h
/-- One that waits for another, and the last. -/
theorem wit_StepsRunAndEnd_restore : (∃ v ∈ (aStep [5, 9]).towers, v ≠ 5 ∧ ((stepsAt [5, 9] (fun _ => .restoring)).tw v).run = .restoring) ∧
    (let s := stepsAt [5, 9] (fun u => if u = 5 then .restoring else .restored)
     (s.tw 5).run = .restoring ∧ ∀ v ∈ (aStep [5, 9]).towers, v ≠ 5 → (s.tw v).run = .restored) := by decide

/-! Wennum commands. -/

/-- A packet with a handle and parameters at offsets, each of so many bytes. -/
def wennum (handle : Nat) (ps : List (Nat × Nat × Nat)) : Wennum where
  flags := 0
  seq := 0x1234
  handle := BitVec.ofNat 32 handle
  length := 48
  zero := 0
  params := BitVec.ofNat 384 (ps.foldl (fun (a : Nat) (p : Nat × Nat × Nat) => a + p.2.2 % 2 ^ (8 * p.2.1) * 2 ^ (8 * (p.1 - 16))) 0)
def ring (s : State) : State := s.setF Reg.keepAdmCtrlEn 1
theorem wit_ring : RingServes (ring run) := by unfold RingServes; decide
theorem wit_packet : FinePacket (wennum 65537 []) ∧ ¬ FinePacket { wennum 65537 [] with length := 49 } ∧
    ¬ FinePacket { wennum 65537 [] with flags := 2 } := by unfold FinePacket; decide
/-- Outside its service, between boundaries, a handle of no channel, and of another generation. -/
theorem wit_WennumAndAdminRing_row : WennumRow .ring (wennum 65537 []) 0x11 (.chanDestroy .ring (wennum 65537 [])) ∧
    WennumRow .smbus (wennum 0 []) 0x40 (.migrate .smbus (wennum 0 [])) := by simp [WennumRow]
theorem wit_WennumAndAdminRing : run.fb Reg.keepAdmCtrlEn = false ∧ ((ring run).setF Reg.rollPhasePhase 1).f Reg.rollPhasePhase ≠ 0 ∧
    (run.chan (65538 % 16384)).live = false ∧ (run.chan (131073 % 16384)).gen ≠ 131073 / 65536 ∧ run.boot.power = true ∧
    run.smb.pending = none ∧ run.smb.lastSeq ≠ some (0x1234 : Word) ∧ run.f Reg.rollPhasePhase = 0 := by decide
def aReply : Reply := ⟨true, List.replicate 32 7, [], 0, some 1, none⟩
def replies (en done : Nat) (rs : List Reply) : State :=
  let s := (((run.setF Reg.keepAdmCtrlEn en).setF Reg.keepAdmCtrlLog2n 4).setF Reg.keepAdmDoneDone done).wr Reg.keepAdmRbase 0x180000000400
  { s with adm := { s.adm with replies := rs } }
/-- Producer values 16 and 17 beyond DONE. -/
theorem wit_WennumAndAdminRing_prod : let s := replies 1 5 []
    ¬ 2 ^ s.f Reg.keepAdmCtrlLog2n < (fld (21 : Dword) 31 0 + 2 ^ 32 - s.f Reg.keepAdmDoneDone) % 2 ^ 32 ∧
    2 ^ s.f Reg.keepAdmCtrlLog2n < (fld (22 : Dword) 31 0 + 2 ^ 32 - s.f Reg.keepAdmDoneDone) % 2 ^ 32 := by decide
theorem wit_WennumAndAdminRing_reply : let s := replies 1 5 [aReply]
    s.adm.replies = aReply :: [] ∧ s.alive = true ∧ s.fb Reg.keepAdmCtrlEn = true ∧ s.boot.resetAfter = none ∧ s.lateWrites = [] ∧
    inWindow (fld (s.rd Reg.keepAdmRbase) 44 5 * 32 + s.f Reg.keepAdmDoneDone % 2 ^ s.f Reg.keepAdmCtrlLog2n * 32) aReply.bytes.length = true ∧
    (s.chan 1).state ≠ 0 := by decide

def createWith : Wennum := wennum 0 [(0x10, 8, 0x500000), (0x18, 8, 0x501000), (0x20, 8, 0x600000), (0x28, 1, 4), (0x29, 1, 12), (0x2A, 1, 3),
  (0x2B, 1, 7), (0x2C, 2, 1024), (0x2E, 2, 8), (0x30, 1, 1), (0x31, 1, 1)]
/-- Channel 0 is the lowest that is free; its rings and its save area lie in device memory. -/
theorem wit_ChannelCommands_create : let s := ring runM
    let w := createWith
    let x : Channel := {
      state := 1, sqBase := par w 0x10 8, cqBase := par w 0x18 8, saveBase := par w 0x20 8, sqLog := par w 0x28 1
      cqLog := par w 0x29 1, asid := par w 0x2A 1, prio := par w 0x2B 1, weight := par w 0x2C 2, bwinLen := par w 0x2E 2
      saveTowers := par w 0x30 1, irq := decide (par w 0x31 1 = 1) }
    (x.sqBase = 0x500000 ∧ x.cqBase = 0x501000 ∧ x.saveBase = 0x600000 ∧ x.prio = 7 ∧ x.sqLog = 4 ∧ x.cqLog = 12 ∧ x.weight = 1024 ∧
      x.bwinLen = 8 ∧ x.saveTowers = 1 ∧ par w 0x31 1 < 2) ∧ s.ringsIn x = true ∧
    s.inDevice x.saveBase (0x10000 + x.saveTowers * 0x180000) = true ∧ (s.chan 0).state = 0 ∧ (s.chan 0).gen < 0xFFFF ∧
    s.freeWindow x.bwinLen = some 0 ∧ s.chanOverlap none x = false := by decide
/-- Channel 1 with no step, with one, FAULTED, and with a completion held. -/
def channel (c : Channel) (steps : List (Nat × StepSt)) : State := { ring runM with chans := [(1, c)], steps := steps }
theorem wit_ChannelCommands : let w := wennum 65537 [(0x10, 8, 0x700000), (0x18, 8, 0x701000)]
    let s := channel { chan0 with state := 3 } []
    RingServes s ∧ FinePacket w ∧ (s.chan 1).live = true ∧ (s.chan 1).gen = w.handle.toNat / 65536 ∧ s.stepsOf 1 = [] ∧
    (s.chan 1).heldC = [] ∧ s.colls = [] ∧ (channel chan0 [(65537, step0)]).stepsOf 1 ≠ [] ∧ (s.chan 1).state = 3 ∧
    par w 0x10 8 % 4096 = 0 ∧ par w 0x18 8 % 4096 = 0 ∧ s.headOf 1 = none ∧ ((channel chan0 []).chan 1).state ≠ 3 ∧
    s.ringsIn { chan0 with state := 3, sqBase := par w 0x10 8, cqBase := par w 0x18 8 } = true ∧
    s.chanOverlap (some 1) { chan0 with state := 3, sqBase := par w 0x10 8, cqBase := par w 0x18 8 } = false := by
  unfold RingServes FinePacket; decide
theorem wit_ChannelCommands_set : let w := wennum 65537 [(0x10, 1, 7), (0x12, 2, 1024)]
    par w 0x10 1 < 8 ∧ par w 0x11 1 = 0 ∧ 1 ≤ par w 0x12 2 ∧ par w 0x12 2 ≤ 1024 := by decide
theorem wit_ChannelCommands_energy : par (wennum 65537 [(0x10, 1, 1)]) 0x10 48 < 2 := by decide
/-- Addresses aligned and inside, at the end of the window, and misaligned; the cap at its bounds and just outside; the log. -/
theorem wit_ModuleCommands : let a := fun (w : Wennum) (o n : Nat) => decide (par w o 8 % 64 = 0) && (ring runM).inDevOrWin (par w o 8) n
    a (wennum 0 [(0x10, 8, 0x180000001000)]) 0x10 64 = true ∧ a (wennum 0 [(0x10, 8, 0x180000001001)]) 0x10 64 = false ∧
    a (wennum 0 [(0x10, 8, 0x1EFFFFFFFFC0)]) 0x10 64 = true ∧
    (∀ cap ∈ [600, 1800, 599, 1801], par (wennum 0 [(0x10, 2, cap)]) 0x10 2 = cap ∧ par (wennum 0 [(0x10, 2, cap)]) 0x12 30 = 0) := by
  decide
theorem wit_ModuleCommands_log : let w := wennum 0 [(0x10, 8, 7), (0x18, 2, 4096), (0x20, 8, 0x400000)]
    par w 0x1A 6 = 0 ∧ 1 ≤ par w 0x18 2 ∧ par w 0x18 2 ≤ 4096 ∧ par w 0x20 8 % 64 = 0 ∧
    (ring runM).inDevOrWin (par w 0x20 8) (64 * par w 0x18 2) = true := by decide
theorem wit_ModuleCommands_report : let s : State := { run with roll := { run.roll with reports := [(8, [4]), (7, [1])] } }
    s.roll.reports.find? (fun e => decide (e.1 = par (wennum 0 [(0x10, 8, 7)]) 0x10 8)) = some (7, [1]) ∧
    ∀ e ∈ s.roll.reports, e.1 ≠ par (wennum 0 [(0x10, 8, 9)]) 0x10 8 := by decide
/-- The page of the tables moves to the frame that the list at 0x180000 names. -/
def listed : State := { ring (xlat (leaf 0x230000 7)) with mem := Tab.putAll 0 (tables (leaf 0x230000 7)) 0x180000 (leBytes 8 0x340000) }
theorem wit_ModuleCommands_migrate : let w := wennum 0 [(0x10, 8, aDva / 65536 * 65536), (0x18, 1, 3), (0x20, 8, 0x180000)]
    RingServes listed ∧ par w 0x10 8 % 0x10000 = 0 ∧ par w 0x1C 4 = 0 ∧ par w 0x28 24 = 0 ∧ par w 0x20 8 % 8 = 0 ∧ par w 0x19 1 < 2 ∧
    par w 0x1A 2 + 1 = 1 ∧ listed.inDevOrWin (par w 0x20 8) (8 * 1) = true ∧
    listed.keepRead (par w 0x20 8) (8 * 1) = (some (leBytes 8 0x340000), listed) ∧ listed.xlt.migs = [] ∧
    listed.inDevOrWin 0x340000 0x10000 = true ∧ leAt (leBytes 8 0x340000) 0 8 = 0x340000 ∧
    listed.migSources (par w 0x18 1) 0x10000 1 (par w 0x10 8) = some [0x230000] ∧ listed.self = 0 ∧ par w 0x10 8 + 0x10000 ≤ 2 ^ 48 := by
  unfold RingServes; decide
def bindWith : Wennum := wennum 0 [(0x10, 2, 511), (0x14, 4, 65537), (0x18, 2, 3), (0x20, 2, 0x101), (0x22, 2, 1), (0x24, 4, 9), (0x28, 8, 0x800000),
  (0x30, 4, 64), (0x38, 8, 0x900000)]
theorem wit_ModuleCommands_bind : let s := ring (ports [])
    let w := bindWith
    let x : CollSlot := {
      bound := true, op := par w 0x12 1, cls := par w 0x13 1, chan := par w 0x14 4, localN := par w 0x18 2
      m := par w 0x1A 2, n := par w 0x1C 2, origin := par w 0x20 2, ext := par w 0x22 2, groupId := par w 0x24 4
      src := par w 0x28 8, stride := par w 0x30 4, dst := par w 0x38 8 }
    par w 0x10 2 < 512 ∧ par w 0x1E 2 = 0 ∧ x.origin < 0x1000 ∧ x.ext < 0x1000 ∧ par w 0x34 4 = 0 ∧ x.src % 64 = 0 ∧ x.dst % 64 = 0 ∧
    x.chan / 16384 % 4 = 0 ∧ collValues x.op x.cls x.localN x.m x.n = true ∧ x.stride % 64 = 0 ∧ x.groupId ≠ 0 ∧
    (∀ i < 3, x.extent i ≤ s.ring i ∧ coord x.origin i < s.ring i) ∧ s.inBox x s.self = true ∧
    s.inDevOrStore x.src (128 * x.stride) = true ∧ s.inDevOrStore x.dst x.stride = true ∧ (s.liveHandle x.chan).isSome = true ∧
    (s.coll (par w 0x10 2)).bound = false ∧ (s.coll (par w 0x10 2)).early = [] ∧
    overlaps x.dst x.stride x.src (128 * x.stride) = false := by decide
theorem wit_ModuleCommands_unbind : 512 ≤ par (wennum 0 [(0x10, 2, 512)]) 0x10 2 ∧ par (wennum 0 [(0x10, 2, 3)]) 0x10 2 < 512 ∧
    ((coll aSlot).coll 3).bound = true ∧ ((coll aSlot).coll 3).arrived = [] ∧ ((coll aSlot).coll 3).got = [] ∧
    ((coll { aSlot with got := [1] }).coll 3).got ≠ [] := by decide

/-- An image of 8 KiB at 0x400000. -/
def anImage : List Byte := List.replicate 0x2000 0
def firmware (st : Option Stage) (r : Option Report) : State := { ring run with
  boot := { run.boot with stage := st, report := r }
  flash := { run.flash with active := true, slotA := anImage } }
theorem wit_FirmwareCommands : let w := wennum 0 [(0x10, 8, 0x400000), (0x18, 4, 0x2000)]
    RingServes (firmware none none) ∧ par w 0x10 8 % 4096 = 0 ∧ par w 0x1C 1 = 0 ∧ par w 0x1D 35 = 0 ∧ 0x2000 ≤ par w 0x18 4 ∧
    (firmware none none).inDevOrWin (par w 0x10 8) (par w 0x18 4) = true ∧ (firmware none none).boot.stage = none ∧
    (firmware none none).f Reg.secStatStage ≠ 3 ∧ (firmware none none).fb Reg.memStatMigrating = false := by unfold RingServes; decide
theorem wit_FirmwareCommands_slot : (firmware none none).flash.active = true ∧ 0x2000 ≤ (firmware none none).flash.slotA.length :=
  ⟨rfl, Nat.le_of_eq (List.length_replicate (n := 0x2000) (a := (0 : Byte))).symm⟩
def aStage (code : Nat) : Stage := ⟨0x400000, 0x2000, code, anImage⟩
theorem wit_FirmwareCommands_stage : (firmware (some (aStage 0)) none).boot.stage = some (aStage 0) ∧ (aStage 0).code = 0 ∧
    (firmware (some (aStage 3)) none).boot.stage = some (aStage 3) ∧ (aStage 3).code ≠ 0 := ⟨rfl, rfl, rfl, by simp [aStage]⟩
theorem wit_FirmwareCommands_reset : par (wennum 0 [(0x10, 1, 128)]) 0x10 1 = 128 ∧ par (wennum 0 []) 0x10 1 = 0 ∧
    (firmware none none).xlt.migs = [] ∧ par (wennum 0 [(0x14, 1, 1)]) 0x14 1 % 2 = 1 ∧ par (wennum 0 [(0x10, 1, 1)]) 0x10 48 < 2 := by decide
def aReport (signed : Bool) : Report := ⟨leBytes 32 0x1234, signed, [1, 2, 3]⟩
theorem wit_FirmwareCommands_attest : let w := wennum 0 [(0x10, 2, 0x1234), (0x38, 8, 0x500000)]
    par w 0x30 1 = 0 ∧ par w 0x31 1 = 0 ∧ par w 0x32 6 = 0 ∧ (aReport true).nonce = leBytes 32 (par w 0x10 32) ∧
    par w 0x38 8 % 64 = 0 ∧ (ring run).inDevOrWin (par w 0x38 8) (aReport true).bytes.length = true ∧ (aReport false).signed = false ∧
    par (wennum 0 [(0x30, 1, 1)]) 0x30 1 = 1 := by decide
def smbus (p : Option (Half × Wennum)) (l : Option Word) : State :=
  { run with smb := { pending := p, lastSeq := l, reply := List.replicate 32 8, data := [1, 2, 3] } }
theorem wit_SmbusTarget : (smbus none none).smbUp = true ∧ ({ run with boot := { run.boot with power := false } } : State).smbUp = false ∧
    (smbus none none).smb.pending = none ∧ (smbus none none).smb.lastSeq ≠ some (wennum 0 []).seq ∧
    (smbus none (some 0x1234)).smb.lastSeq = some (wennum 0 []).seq ∧ (smbus none none).smb.reply.length = 32 ∧
    (smbus (some (1, wennum 0 [])) none).smb.pending = some (1, wennum 0 []) := by decide
/-- A packet that waits while the module starts. -/
theorem wit_SmbusTarget_early : let s := (smbus (some (1, wennum 0 [])) none).setF Reg.keepStatReady 0
    s.smbUp = true ∧ s.smb.pending = some (1, wennum 0 []) ∧ s.ready = false ∧ s.boot.responder = false ∧ FinePacket (wennum 0 []) ∧
    (wennum 0 []).handle = 0 := by unfold FinePacket; decide

/-! Start-up, pins, the host die, power, reliability. -/

def starting (trial : Nat) : State :=
  let s := (run.setF Reg.keepStatReady 0).setF Reg.secStatTrial trial
  { s with boot := { s.boot with running := true, state := 1, fw := some true }, flash := { s.flash with slotB := leBytes 16 (0x1000000010000000000000000) } }
theorem wit_PowerAndResets_up : run.flash.trial = false ∧ run.flash.slotA = [] ∧ run.flash.slotB = [] ∧ run.boot.stage = none := by decide
theorem wit_PowerAndResets_ready : ∀ t ∈ [0, 1], (starting t).boot.fw = some true ∧ (starting t).boot.running = true ∧
    (starting t).boot.power = true ∧ (starting t).alive = true ∧ (starting t).boot.tapStop = false ∧
    (starting t).fb Reg.secStatTrial = decide (t = 1) := by decide
theorem wit_PowerAndResets_reset : run.boot.power = true ∧ run.boot.trip = false ∧ Tab.sortedFrom 0 run.regs = true ∧
    ((starting 0).setF Reg.hstRstCauseWdogRun 2).f Reg.hstRstCauseWdogRun < 3 ∧
    3 ≤ ((starting 0).setF Reg.hstRstCauseWdogRun 3).f Reg.hstRstCauseWdogRun ∧ fld (0xFF00005A5A : Dword) 15 0 = 0x5A5A ∧
    fld (0x5A5B : Dword) 15 0 ≠ 0x5A5A := by decide
theorem wit_PinsAttachAndResponder : ({ run with alive := false } : State).boot.power = true ∧ ({ run with alive := false } : State).alive = false ∧
    run.boot.tap ≠ .extest ∧ run.boot.responder = false ∧ run.alive = true := by decide
def attach (l : List (Nat × Nat)) : State := l.foldl (fun (s : State) (e : Nat × Nat) => s.setF (Reg.hstUcieState e.1) e.2) run
/-- Module 1 the last that is up, and down beside one that is up. -/
theorem wit_PinsAttachAndResponder_link : let s := attach [(0, 3), (1, 2), (2, 3), (3, 3)]
    let s' := attach [(0, 1), (1, 3), (2, 3), (3, 3)]
    s.f (Reg.hstUcieState (1 : BitVec 2).toNat) ≠ 3 ∧ (∀ j < 4, j ≠ 1 → s.f (Reg.hstUcieState j) = 3) ∧
    s'.f (Reg.hstUcieState (1 : BitVec 2).toNat) = 3 ∧ s'.f (Reg.hstUcieState 0) ≠ 3 := by decide
theorem wit_PinsAttachAndResponder_eoi : run.irqOn = false ∧
    ((run.wr Reg.hstIrqPend 0x20).wr Reg.hstIrqEn 0x20).irqOn = true := by decide
theorem wit_HostAccess : run.boot.power = true ∧ run.fb Reg.hstStatReady = true ∧ (run.setF Reg.hstStatReady 0).fb Reg.hstStatReady = false ∧
    (devs [] [] [0x100040 / 64]).unreadable 0x100048 8 = true ∧ run.lpaPlace 0x100048 = .device ∧ run.lpaPlace 0x2000000000 = .hole ∧
    0x100048 % 64 + 8 ≤ 64 := by decide
theorem wit_HostAccess_answers : Answers run 0x10003C 256 := answers_at _ _ _ (by decide) (by decide) rfl rfl rfl
/-- 102, 103, 104, 105 °C and the guard of the droop detector; a device that is, and one that is not. -/
theorem wit_PowerHardware : (102 : Byte).toNat < 103 ∧ 103 ≤ (103 : Byte).toNat ∧ (104 : Byte).toNat < 105 ∧ 105 ≤ (105 : Byte).toNat ∧
    (23 : BitVec 5).toNat < 24 ∧ 24 ≤ (24 : BitVec 5).toNat ∧ Tab.has run.pwr.droop 17 = false ∧
    Tab.has ({ run.pwr with droop := [(17, 5)] } : PwrSt).droop 17 = true ∧ fld run.pwr.droopCfg 7 0 < (255 : Byte).toNat := by decide
def testing : State := run.modTw 5 (fun w => { w with run := .testing })
theorem wit_Reliability_test : (run.tw (5 : TId).toNat).run ≠ .testing ∧ (testing.tw (5 : TId).toNat).run = .testing ∧
    (spareAfter (testing.rd (Reg.sprSpare 5)) ⟨false, [7], false, false, [3], [4]⟩).isSome = true ∧ testing.rel.retireLater = [] := by decide
theorem wit_Reliability_monitor :
    let s : State := { run with pwr := { run.pwr with base := [(1, List.replicate 32 20)] } }
    Tab.get [] s.pwr.base (1 : BitVec 5).toNat = List.replicate 32 20 ∧ (∀ x ∈ [14, 26], 14 ≤ x ∧ x ≤ 26) ∧
    (∀ x ∈ List.replicate 32 13, x < 14) ∧ ∀ v ∈ towersIn (1 : BitVec 5).toNat, (s.tw v).run ≠ .retired := by decide
theorem wit_Reliability_queues : run.roll.overruns < 64 ∧ run.roll.passed < run.rel.teleFrom + 64 ∧
    run.rel.teleFrom + 64 ≤ ({ run.roll with passed := 64 } : RollSt).passed ∧ run.flashq.events = [] ∧ run.flashq.recs = [] ∧
    ({ run.flashq with recs := [.relayout true] } : FlashQueue).recs = .relayout true :: [] := by decide

/-! The machine as a whole. -/

theorem wit_CanonicalFormKept : Safety.canonical State.reset := by unfold Safety.canonical; decide
/-- The idle block steps, and a block with a command does. -/
theorem wit_CanonicalFormKept_step : (∃ t, step State.reset = .next t) ∧
    ∃ t, step { State.reset with pending := [.tapIdcode] } = .next t := ⟨⟨_, rfl⟩, _, rfl⟩
theorem wit_QueueAndVersionFloor : State.reset.flash.svnMin ≤ 64 := by decide
theorem wit_CollectiveMessages_held :
    let c : CollSlot := { aSlot with ext := 0x100, up := true, held := true }
    let s := (coll c).setF Reg.rollStatAligned 1
    let s' := (List.range 6).foldl (fun (s : State) (d : Nat) => s.setF (Reg.gwlPortState d) 2) s
    (s'.coll 3).held = true ∧ s'.fb Reg.rollStatAligned = true ∧ (s'.coll 3).sentUp = false ∧ (s'.coll 3).fault = false ∧
    c.ext % 4096 ≠ 0 ∧ s'.collKids c = [] ∧ ((s'.collParent c).map (fun h => decide (s'.usable h.2 ≠ []))) = some true := by decide

/-! The boundary with steps and packets. -/

/-- One step on channel 1 at the end of a roll, its Towers as given. -/
def ending (st : StepSt) (r : Run) : State :=
  let s := rollAt 1023 1 ({ up with
    chans := [(1, { chan0 with sqProd := 24, sqCons := 20, cqCons := 5, posted := 7, saveBase := 0x600000, saveTowers := 8 })]
    steps := [(65555, st)]
    towers := st.towers.map (fun u => (u, { tower0 with run := r, step := some 65555 })) }.setF Reg.keepStatTowers 128)
  { s with roll := { s.roll with occ := st.towers.map (fun u => (u, 65555)), keepCfg := 2 * 2 ^ 24 } }
def theStep (towers : List Nat) : StepSt := { step0 with desc := stepBytes 2 3 0 0, towers := towers, due := 7 }
def waits : StepSt := { theStep [] with phase := .waiting }
theorem wit_StepBoundary : ∀ x ∈ [(theStep [5, 9], Run.done), (theStep [5, 9], .running), (theStep [5, 9], .stopped), (waits, .free)],
    StepBoundary aSample (ending x.1 x.2) ∧ (ending x.1 x.2).fb Reg.keepAdmCtrlEn = false := by
  unfold StepBoundary TimelyDecisions Untroubled; decide
/-- Its Towers and its channel. -/
theorem wit_RollBoundary_step : ∀ r ∈ [Run.done, .running, .stopped], let s := ending (theStep [5, 9]) r
    s.steps = [(65555, theStep [5, 9])] ∧ Tab.has s.chans (65555 / 65536) = true ∧ (s.chan (65555 / 65536)).state ≠ 3 ∧
    (∀ e ∈ s.roll.occ, e.2 = 65555) ∧ (∀ u < 128, (s.tw u).step ≠ none → u ∈ (theStep [5, 9]).towers) ∧
    (∀ u ∈ (theStep [5, 9]).towers, u < 128 ∧ (s.tw u).step = some 65555 ∧ (s.tw u).run ∈ [Run.running, .done, .stopped]) := by decide
/-- Within its budget and past it, struck and to be restarted or not, and one that waits, due and not yet due. -/
theorem wit_RollBoundary_kinds : let s := ending (theStep [5, 9]) .running
    let b := fun (n f : Nat) => { theStep [5, 9] with desc := stepBytes 2 n f 0 }
    (b 3 0).phase = .resident ∧ (b 3 0).reserved = [] ∧ (b 3 0).fail = 0 ∧ s.stepHeld (b 3 0) = false ∧ (b 3 0).budget = 3 ∧
    (b 1 0).budget ≤ min 255 ((b 1 0).used + 1) ∧ (b 3 0).restart = false ∧ (b 3 1).restart = true ∧ s.rowThree (b 3 1) = false ∧
    ((b 3 1).reexec < fld s.roll.keepCfg 26 24 ∧ rowFour (b 3 1) = false) ∧ (b 3 1).need ≤ 128 ∧ (b 3 1).place = false ∧
    (∀ u < 128, (s.tw u).run = .free ∨ u ∈ (b 3 1).towers) ∧ waits.due ≤ s.roll.rc + s.roll.len ∧
    s.roll.rc + s.roll.len < ({ waits with due := 9999 } : StepSt).due ∧ (ending waits .free).roll.occ = [] := by decide
/-- Held rolls: the host die alone draws more than the cap, and the plan is in force. -/
theorem wit_RollBoundary_held :
    let s₀ := (ending (theStep [5, 9]) .running).setF Reg.pwrCapInForce 50
    let pa := Config.predictedPower (s₀.roll.adopt.getD (s₀.now + 1) % 2 ^ 64) (List.replicate 32 0) false + aSample.hostPower.toNat
    let ph := Config.predictedPower (s₀.roll.adopt.getD (s₀.now + 1) % 2 ^ 64) (List.replicate 32 0) true + aSample.hostPower.toNat
    let s := { s₀ with pwr := { s₀.pwr with plan := some (planK pa ph 50, 0) } }
    (∀ ops, s.f Reg.pwrCapInForce <
      Config.predictedPower (s.roll.adopt.getD (s.now + 1) % 2 ^ 64) ops false + aSample.hostPower.toNat) ∧
    s.pwr.plan = some (planK pa ph (s.f Reg.pwrCapInForce), 0) := by
  refine ⟨fun ops => ?_, rfl⟩
  have h : aSample.hostPower.toNat = 90 := rfl
  exact Nat.lt_of_lt_of_le (show _ < 90 by decide) (by rw [h]; exact Nat.le_add_left _ _)
/-- A step that waits and one of lower priority that holds two Towers, all others being out of service. -/
def contended : State :=
  let v : StepSt := { theStep [5, 9] with desc := stepBytes 2 9 0 0 }
  let s := ending v .running
  { s with
    chans := [(1, { s.chan 1 with prio := 2 }), (2, { s.chan 1 with prio := 5 })]
    steps := [(65555, v), (131092, { waits with desc := stepBytes 2 9 0 0 })]
    towers := (List.range 128).map (fun u => (u, if u = 5 ∨ u = 9 then s.tw u else { run := .retired }))
    roll := { s.roll with keepCfg := 1024 } }
theorem wit_RollBoundary_preempts : StepBoundary aSample contended ∧ contended.fb Reg.keepAdmCtrlEn = false := by
  unfold StepBoundary TimelyDecisions Untroubled; decide
theorem wit_RollBoundary_pair : let s := contended
    let v : StepSt := { theStep [5, 9] with desc := stepBytes 2 9 0 0 }
    let w : StepSt := { waits with desc := stepBytes 2 9 0 0 }
    s.steps = [(65555, v), (131092, w)] ∧ 131092 / 65536 ≠ 65555 / 65536 ∧ Tab.has s.chans (131092 / 65536) = true ∧
    w.due ≤ s.roll.rc + s.roll.len ∧ w.place = false ∧ v.used + 1 < v.budget ∧ (s.chan 1).prio < (s.chan 2).prio ∧ (s.chan 1).saveBase ≠ 0 ∧
    (∀ u ∈ v.towers, u < 128 ∧ (s.tw u).step = some 65555 ∧ (s.tw u).run = .running ∧ (s.tw u).qTur = []) ∧
    (∀ u < 128, u ∉ v.towers → (s.tw u).run = .retired) ∧ w.need ≤ v.towers.length ∧ s.saveBytes v ≤ s.xferMax := by decide
theorem tcOf_least (op : Nat) : 6656 ≤ tcOf op := by
  by_cases h : op < 8
  · exact (by decide : ∀ op < 8, 6656 ≤ tcOf op) op h
  · rw [tcOf, List.getElem?_eq_none (by simpa using Nat.le_of_not_lt h)]; decide
/-- Their saves fit in a roll at whatever points. -/
theorem wit_RollBoundary_saves (ops : List Nat) : contended.saveFits ops { theStep [5, 9] with desc := stepBytes 2 9 0 0 } = true := by
  have q : ∀ t ∈ [5, 9], ∀ per, contended.quiesceRc t per = 0 := by
    intro t h per
    simp only [List.mem_cons, List.not_mem_nil, or_false] at h
    rcases h with rfl | rfl <;> rfl
  have b : ∀ t ∈ [5, 9], ceilDiv (contended.contextBytes t) 256 ≤ 6656 := by decide
  simp only [State.saveFits, theStep, List.map_cons, List.map_nil, List.foldl_cons, List.foldl_nil, q 5 (by decide), q 9 (by decide),
    List.all_cons, List.all_nil, Bool.and_true, Bool.and_eq_true, decide_eq_true_eq]
  have h5 := b 5 (by decide)
  have h9 := b 9 (by decide)
  have t5 := tcOf_least (opAt ops (regionOf 5))
  have t9 := tcOf_least (opAt ops (regionOf 9))
  simp only [Nat.max_self, Nat.sub_zero]
  refine ⟨by decide, ?_, ?_⟩ <;> (rw [Nat.mul_comm]; exact Nat.mul_le_mul_left _ (Nat.le_trans ‹_› ‹_›))

/-- Packets of the roll that have come due: two that break the rules and, alone, a cap. -/
def packets (l : List (Nat × Nat × Wennum)) : State :=
  let s := ring (rollAt 1023 1 up)
  { s with adm := { s.adm with rows := l } }
def broken : Wennum := { wennum 7 [] with flags := 2 }
theorem wit_RollBoundary_packets : let l := [(5, 0x20, broken), (1024, 0x01, broken)]
    let s := packets l
    s.keepsAct = true ∧ s.ready = true ∧ s.boot.responder = false ∧ QuietModule { s with adm := { s.adm with rows := [] }, smb := {} } ∧
    s.roll.left = 0 ∧ s.smb.pending = none ∧ s.fb Reg.keepAdmCtrlEn = true ∧
    ∀ e ∈ l, e.1 ≤ s.roll.rc + s.roll.len ∧ e.2.1 ∈ [0x01, 0x20, 0x30] ∧ ¬ FinePacket e.2.2 := by
  unfold QuietModule Untroubled FinePacket; decide
theorem wit_RollBoundary_cap : ∀ cap ∈ [600, 1800], let w := wennum 5 [(0x10, 2, cap)]
    (packets [(1024, 0x20, w)]).adm.rows = [(1024, 0x20, w)] ∧ FinePacket w ∧ par w 0x12 30 = 0 ∧ par w 0x10 2 = cap ∧
    ¬ (packets []).roll.rc + (packets []).roll.len < 1024 ∧ (packets []).roll.rc + (packets []).roll.len < 1025 := by
  unfold FinePacket; decide
theorem wit_RollBoundary_smbus : let s : State := { rollAt 1023 1 up with smb := { pending := some (0x20, broken), pendDue := 1024 } }
    s.keepsAct = true ∧ s.ready = true ∧ QuietModule { s with adm := { s.adm with rows := [] }, smb := {} } ∧ s.adm.rows = [] ∧
    s.smb.pendDue ≤ s.roll.rc + s.roll.len ∧ s.fb Reg.keepAdmCtrlEn = false := by unfold QuietModule Untroubled; decide
/-- The interval of telemetry at its end and just before. -/
theorem wit_RollBoundary_telemetry : let s := rollAt 1023 1 up
    s.rel.teleFrom + 64 ≤ 63 + 1 ∧ s.roll.passed + 1 < s.rel.teleFrom + 64 ∧
    QuietModule { s with roll := { s.roll with passed := 63 } } := by unfold QuietModule Untroubled; decide

/-! Turns of the doorbells, and the region list. -/

def belled (bytes : List Byte) : State := let s := queued bytes; { s with adm := { s.adm with bells := [(2, 9), (1, 24)] } }
/-- An unread descriptor whose doorbell is first among those whose gate is open; an aborted channel that is FAULTED. -/
theorem wit_StepsAccepted_turn : (belled []).nextToConsume = some 1 ∧ run.nextToConsume ≠ some 1 ∧
    (let s := { belled [] with adm := { (belled []).adm with bells := [(1, 24)] } }
     s.adm.bells = (1, 24) :: [] ∧ s.gateOpen 1 = true ∧ (s.chan 1).sqCons ≠ 24 ∧ (s.chan 1).sqCons < 65536) ∧
    (let c := { chan0 with state := 3, abortPend := true }
     c.state = 3 ∧ c.abortPend = true ∧ c.live = true) := by decide
/-- One input region listed at the start of the window. -/
def listing : List Byte := (stepBytes 2 3 0 0).take 0x50 ++ leBytes 8 0x180000000000 ++ leBytes 2 1 ++ leBytes 2 0 ++ leBytes 4 0
  ++ leBytes 16 0 ++ leBytes 16 0
theorem wit_StepsAccepted_list : listing.length = 128 ∧ (belled listing).descMalformed listing = false ∧
    inWindow (leAt listing 0x50 8) (16 * (leAt listing 0x58 2 + leAt listing 0x5A 2)) = true ∧
    leAt listing 0x58 2 + leAt listing 0x5A 2 ≠ 0 := by decide
theorem wit_StepsRunAndEnd_upset : ((stepsAt [5] (fun _ => .saving)).tw 5).run = .saving ∧
    ((stepsAt [5] (fun _ => .saving)).tw 5).step = some (65536 + 19) := by decide
/-- A packet behind another, and one at a boundary whose items have gone by. -/
theorem wit_WennumAndAdminRing_waits : let s := ring run
    (packets [(5, 0x20, broken)]).adm.rows ≠ [] ∧ ({ s with roll := { s.roll with settled := false } } : State).roll.settled = false ∧
    s.roll.settled = true ∧ s.boot.tap ≠ .extest := by decide
/-- An abort with one step on the channel, whose completion finds its ring. -/
theorem wit_ChannelCommands_abort : let s := channel { chan0 with sqProd := 24, sqCons := 20, cqCons := 5, posted := 7 } [(65555, step0)]
    RingServes s ∧ (s.chan 1).live = true ∧ (s.chan 1).state ≠ 3 ∧ s.stepOut step0 = false ∧ Memory.wf s.mem = true ∧
    Tab.sortedFrom 0 s.bad = true ∧ (∀ u ∈ step0.towers, u < 128 ∧ s.fb (Reg.twrStatMchk u) = false) ∧
    ({ chan0 with state := 3 } : Channel).state = 3 ∧ (65537 : Word).toNat % 16384 = 1 := by unfold RingServes; decide
theorem wit_ChannelCommands_answers : Answers (channel { chan0 with posted := 7 } [(65555, step0)]) (0x301000 + 32 * 7) 32 :=
  answers_at _ _ _ (by decide) (by decide) rfl rfl rfl
theorem wit_FirmwareCommands_reject : let w := wennum 0 [(0x38, 8, 0x500008)]
    par w 0x30 1 < 2 ∧ par w 0x31 1 = 0 ∧ par w 0x32 6 = 0 ∧ par w 0x38 8 % 64 ≠ 0 := by decide
/-- A frame that the target hears, and ones to another address, with another code and with a wrong PEC. -/
theorem wit_SmbusTarget_heard : let s := smbus none none
    (s.boot.power = true ∧ s.boot.tap ≠ .extest ∧ s.alive = true) ∧ s.boot.straps = 0 ∧
    (let x : SmbFrame := ⟨0x58, 0xC0, true⟩; x.addr.toNat = 0x58 + s.boot.straps ∧ x.code = 0xC0 ∧ x.pecOk = true) ∧
    (⟨0x59, 0xC0, true⟩ : SmbFrame).addr.toNat ≠ 0x58 + s.boot.straps := by decide
/-- Trained modules, none trained, and an image programmed by the module. -/
theorem wit_PowerAndResets_ucie : (∃ x ∈ anEnv.ucie.take 4, x.st = 1 ∨ x.st = 2) ∧
    (let e := { anEnv with ucie := List.replicate 4 ⟨3, 1, 0⟩ }; e.ucie.length = 4 ∧ ∀ x ∈ e.ucie, x.st = 0 ∨ x.st = 3) ∧
    anEnv.codeA = 0 ∧ anEnv.imageA.svn = 7 := by decide
/-- Coefficients not yet in the flash, and all there. -/
theorem wit_PowerAndResets_coefficients :
    (∀ c, FlashRec.coeff 4 c ∈ ({ run.flashq with recs := [.coeff 4 c] } : FlashQueue).recs) ∧
    ∀ d c, FlashRec.coeff d c ∉ (starting 0).flashq.recs := by
  refine ⟨fun c => List.Mem.head _, fun d c => ?_⟩
  have : (starting 0).flashq.recs = [] := rfl
  simp [this]
theorem wit_PinsAttachAndResponder_training : ((⟨2, 3, 1⟩ : UcieTraining).st = 1 ∨ (⟨2, 3, 1⟩ : UcieTraining).st = 2) ∧
    ¬ ((⟨3, 3, 0⟩ : UcieTraining).st = 1 ∨ (⟨3, 3, 0⟩ : UcieTraining).st = 2) := by decide
/-- A stretch of region 17, with detectors below the guard and one at it; a device limited already or waiting to be. -/
theorem wit_PowerHardware_droop : let s : State := { run with pwr := { run.pwr with droop := [(17, (5, 3))], droopCfg := 40 } }
    Tab.find s.pwr.droop 17 = some (5, 3) ∧ ¬ (∃ m ∈ (⟨20, [30, 29, 28, 0]⟩ : StretchEnd).mv, fld s.pwr.droopCfg 7 0 < m.toNat + 10) ∧
    (∃ m ∈ (⟨20, [31, 29, 28, 0]⟩ : StretchEnd).mv, fld s.pwr.droopCfg 7 0 < m.toNat + 10) ∧
    (7 ∉ run.pwr.limited ∧ Tab.has run.pwr.limitDue 7 = false) := by decide
/-- A self-test ending within a roll, one already told, and one that fails. -/
theorem wit_Reliability_boundary : (testing.setF Reg.rollPhasePhase 3).f Reg.rollPhasePhase ≠ 0 ∧
    (∀ x, ((5 : TId).toNat, x) ∉ testing.rel.tests) ∧ testing.f Reg.rollPhasePhase = 0 ∧
    (∃ x, (5, x) ∈ ({ testing.rel with tests := [(5, ⟨true, [], false, false, [], []⟩)] } : RelSt).tests) :=
  ⟨by decide, fun x h => by have e : testing.rel.tests = [] := rfl; simp [e] at h, by decide, ⟨true, [], false, false, [], []⟩, List.Mem.head _⟩
/-- A region whose monitors have lost 7 ps, each regained by 1 ps for 5 mV. -/
theorem wit_Reliability_replan :
    let s : State := { run with pwr := { run.pwr with slope := (List.range 8).map (fun o => (8 + o, 200)) } }
    let slack := List.replicate 32 13
    (∃ i < 32, (((slack[i]?).getD 20 : Nat) : Int) - ((((([] : List Nat))[i]?).getD 0 : Nat) : Int) < 14) ∧
    (∀ o < 8, 0 < ((Tab.get 0 s.pwr.slope (1 * 8 + o) : Nat) : Int)) ∧
    (20000 : Int) ≤ 1000 * (20 + (13 - 20)) + (60 - ((Tab.get 0 s.pwr.margins (1 * 8 + 0) : Nat) : Int)) * 200 := by decide
theorem wit_Reliability_programs : run.alive = true ∧ ({ run.rel with teleDone := [[1]] } : RelSt).teleDone = [1] :: [] ∧
    ({ run.flashq with events := [(1, 2, 0, [])] } : FlashQueue).events = (1, 2, 0, []) :: [] := by decide

/-! Single steps, with results worked out by hand from the rules. -/

/-- The state after a command that goes on. -/
def after (i : Instr) (s : State) : State := match exec i s with
  | .next t => t
  | _ => s

/-- −1 + 5 = 4 with carry out and no overflow: flags N Z C V S = 0 0 1 0 0 (R261, R266). -/
theorem test_add_carries : ((after (.add c5 7 3 1 true) run).core c5).getG 7 = 4 ∧
    ((after (.add c5 7 3 1 true) run).core c5).flags = 0b00100 := by decide
/-- The handler of cause 5 lies 5 × 64 bytes above BASE 0x20000, and the resume offset is the next word (R298). -/
theorem test_trap_vector : ((after (.trap c5 9) run).core c5).pc = 0x20140 ∧ ((after (.trap c5 9) run).core c5).epc = 0x1004 := by decide
/-- The byte 0x81 loaded signed is −127, and unsigned 129; two bytes 0x81 0x84 are 0x8481, the first lowest (R276). -/
theorem test_load_extends : ((after (.ld c5 7 1 5 4 0 .none) runM).core c5).getG 7 = -127 ∧
    ((after (.ld c5 7 1 5 0 0 .none) runM).core c5).getG 7 = 129 ∧ ((after (.ld c5 7 1 5 1 0 .none) runM).core c5).getG 7 = 0x8481 := by
  decide
/-- A bit that was 0 reads 0 and Z is set; `bset` sets it (R286). -/
theorem test_bits : ((after (.btst c5 7 1 0) run).core c5).getG 7 = 0 ∧ ((after (.btst c5 7 1 0) run).core c5).flags = 0b01000 ∧
    ((after (.bset ⟨c5, .none⟩ 1 0) run).tw 5).localBits = [(5, true)] := by decide
/-- A register that no block has reads 0, and the host's read of a hole gives zeros and marks it (R535). -/
theorem test_host_hole : (after (.hostRead 0x2000000000 4) run).out.host = [.data [0, 0, 0, 0]] ∧
    (after (.hostRead 0x2000000000 4) run).f Reg.hstStatHole = 1 := by decide
/-- A module that stops keeps its memory and lowers READY (R28). -/
theorem test_stop : (after .moduleFault runM).mem = mem1 ∧ (after .moduleFault runM).f Reg.keepStatReady = 0 := by decide
/-- `tclr` of tile 2 clears its first byte (R215). -/
theorem test_tclr : Tab.get 0 ((after (.tclr 5 .whole 2) eng).tw 5).tiles (2 * 32768) = 0 ∧
    Tab.get 0 (eng.tw 5).tiles (2 * 32768) = 11 := by decide
/-- CRC-32 of "123456789" is 0xCBF43926, the check value of IEEE 802.3 (R63). -/
theorem test_crc32 : crc32 [0x31, 0x32, 0x33, 0x34, 0x35, 0x36, 0x37, 0x38, 0x39] = 0xCBF43926 := by decide

end Sys2Proof.Tests
end

section
/-! PROOFS. An engine instruction at its core: how it issues, when it stalls or is illegal, and what an uncorrectable error does. -/

namespace Sys2Proof.Machine
open Sys2Proof.Says

/-! Towers that stop (R467, R564). -/

/-- What the end of a step makes of what a Tower does. -/
def Run.halted (r : Run) : Run := if r = .running ∨ r = .restoring ∨ r = .restored then .stopped else r

theorem Run.halted_ne_running (r : Run) : r.halted ≠ .running := by cases r <;> decide
@[simp] theorem Run.halted_halted (r : Run) : r.halted.halted = r.halted := by cases r <;> rfl
theorem Run.halted_running : Run.halted .running = .stopped := rfl

/-- The Tower that the end of a step leaves. -/
def Tower.halted (w : Tower) : Tower :=
  if w.run = .running ∨ w.run = .restoring ∨ w.run = .restored then { w with run := .stopped } else w

theorem Tower.run_halted (w : Tower) : w.halted.run = w.run.halted := by
  unfold Tower.halted Run.halted; split <;> rfl

theorem State.stopTowers_cons (s : State) (t : Nat) (ts : List Nat) :
    s.stopTowers (t :: ts) = (s.modTw t Tower.halted).stopTowers ts := rfl

/-- The Towers named stop, and every other does what it did. -/
theorem State.run_stopTowers (s : State) (ts : List Nat) (v : Nat) :
    ((s.stopTowers ts).tw v).run = if v ∈ ts then (s.tw v).run.halted else (s.tw v).run := by
  induction ts generalizing s with
  | nil => rfl
  | cons t ts ih =>
    rw [State.stopTowers_cons, ih, State.tw_modTw]
    by_cases hv : v = t
    · subst hv; simp [Tower.run_halted]
    · simp [hv]

/-- The step that a Tower holds is among the accepted ones. -/
theorem State.find_stepOf (s : State) (u k : Nat) (st : StepSt) (h : s.stepOf u = some (k, st)) :
    Tab.find s.steps k = some st := by
  unfold State.stepOf at h
  split at h
  · obtain ⟨x, hx, he⟩ := Option.map_eq_some_iff.mp h
    cases he; exact hx
  · cases h

/-- Where a Tower holds a step, a strike of it stops the step's Towers and marks the step (R467). -/
theorem State.strike_of_stepOf (s : State) (u k : Nat) (st : StepSt) (h : s.stepOf u = some (k, st)) :
    (∀ v, (s.strike u).tw v = (s.stopTowers st.towers).tw v) ∧
      Tab.find (s.strike u).steps k = some { st with struck := true } := by
  simp only [State.strike, h, State.strikeStep, s.find_stepOf u k st h]
  exact ⟨fun _ => rfl, Tab.find_set_same _ _ _⟩

/-- Whatever a strike stops, a Tower goes on as it did or halts. -/
theorem State.run_strike (s : State) (u v : Nat) :
    ((s.strike u).tw v).run = (s.tw v).run ∨ ((s.strike u).tw v).run = (s.tw v).run.halted := by
  have stops (ts : List Nat) : ((s.stopTowers ts).tw v).run = (s.tw v).run ∨
      ((s.stopTowers ts).tw v).run = (s.tw v).run.halted := by
    rw [State.run_stopTowers]; split <;> simp
  cases h : s.stepOf u with
  | none => simpa only [State.strike, h] using stops [u]
  | some x => rw [(s.strike_of_stepOf u x.1 x.2 h).1]; exact stops _

/-! Records of errors leave Towers and steps. -/

theorem State.uncorrected_frame (s : State) (struct part addr t : Nat) :
    (s.uncorrected struct part addr t).towers = s.towers ∧ (s.uncorrected struct part addr t).steps = s.steps := by
  simp only [State.uncorrected, State.event]; split <;> exact ⟨rfl, rfl⟩

/-- The state of a Tower machine check once the error is recorded and counted and MCHK set, before the strike. -/
def State.mchkRecorded (s : State) (u : TId) (struct addr : Nat) : State :=
  ((s.uncorrected struct (partTower u.toNat) addr u.toNat).bump .machineCheck u.toNat 1).setF (Reg.twrStatMchk u.toNat) 1

theorem State.machineCheck_tower (s : State) (u : TId) (struct addr : Nat) :
    s.machineCheck (.tower u) struct addr = ((s.mchkRecorded u struct addr).strike u.toNat).modTw u.toNat
      (fun w => { w with run := if w.run = .retired then .retired else .stopped }) := rfl
theorem State.mchkRecorded_f (s : State) (u : TId) (struct addr : Nat) :
    (s.mchkRecorded u struct addr).f (Reg.twrStatMchk u.toNat) = 1 :=
  State.f_setF_same _ _ _ (by decide : 7 < 64) (le_refl 7)
theorem State.mchkRecorded_mem (s : State) (u : TId) (struct addr : Nat) : (s.mchkRecorded u struct addr).mem = s.mem :=
  s.uncorrected_mem struct (partTower u.toNat) addr u.toNat
theorem State.mchkRecorded_tw (s : State) (u : TId) (struct addr v : Nat) :
    (s.mchkRecorded u struct addr).tw v = s.tw v := by
  have towers : (s.mchkRecorded u struct addr).towers = s.towers :=
    (s.uncorrected_frame struct (partTower u.toNat) addr u.toNat).1
  simp only [State.tw, towers]
theorem State.mchkRecorded_stepOf (s : State) (u : TId) (struct addr v : Nat) :
    (s.mchkRecorded u struct addr).stepOf v = s.stepOf v := by
  have steps : (s.mchkRecorded u struct addr).steps = s.steps :=
    (s.uncorrected_frame struct (partTower u.toNat) addr u.toNat).2
  simp only [State.stepOf, State.mchkRecorded_tw, steps]

/-- A machine check of a Tower that runs: it is flagged, its step is struck, and no Tower of the step runs on (R158, R505). -/
theorem State.machineCheck_checked (s : State) (u : TId) (struct addr : Nat) (hr : (s.tw u.toNat).run = .running) :
    MachineChecked u s (s.machineCheck (.tower u) struct addr) := by
  rw [State.machineCheck_tower]
  have hrun := State.run_strike (s.mchkRecorded u struct addr) u.toNat u.toNat
  rw [State.mchkRecorded_tw, hr, Run.halted_running] at hrun
  refine ⟨?_, ?_, ?_, fun k st hst => ?_⟩
  · rw [← s.mchkRecorded_f u struct addr]; simp [State.f, State.rd]
  · rcases hrun with h | h <;> simp [h]
  · simp [State.mchkRecorded_mem]
  · rw [← s.mchkRecorded_stepOf u struct addr] at hst
    obtain ⟨htw, hfind⟩ := State.strike_of_stepOf _ _ _ _ hst
    refine ⟨hfind, fun v hv => ?_⟩
    rw [State.tw_modTw]
    split
    · rcases hrun with h | h <;> simp [h]
    · rw [htw, State.run_stopTowers, if_pos hv]; exact Run.halted_ne_running _

/-- What a machine check says of two states, it says of an earlier one that holds the same memory and step. -/
theorem machineChecked_of_same {u : TId} {s r t : State} (hm : r.mem = s.mem) (hst : r.stepOf u.toNat = s.stepOf u.toNat)
    (h : MachineChecked u r t) : MachineChecked u s t := by
  obtain ⟨hf, hrun, hmem, hsteps⟩ := h
  exact ⟨hf, hrun, hmem.trans hm, fun k st hk => hsteps k st (hst.trans hk)⟩

/-! The queues of a Tower. -/

@[simp] theorem Tower.run_setQueue (w : Tower) (e : Eng) (q : List QEntry) : (w.setQueue e q).run = w.run := by
  cases e <;> rfl
@[simp] theorem Tower.held_setQueue (w : Tower) (e : Eng) (q : List QEntry) : (w.setQueue e q).held = w.held := by
  cases e <;> rfl
@[simp] theorem Tower.step_setQueue (w : Tower) (e : Eng) (q : List QEntry) : (w.setQueue e q).step = w.step := by
  cases e <;> rfl
@[simp] theorem Tower.core_setQueue (w : Tower) (e : Eng) (q : List QEntry) : (w.setQueue e q).core = w.core := by
  cases e <;> rfl

/-- An engine other than the stream engine does nothing with an empty queue. -/
theorem State.engGo_of_empty (s : State) (n : Nat) (e : Eng) (he : e ≠ .str) (hq : (s.tw n).queue e = []) :
    s.engGo n e = s := by
  simp [State.engGo, he, hq, State.engDrain]

/-- A bit is the field of that bit alone. -/
theorem bit_eq_fld (w : Dword) (i : Nat) : bit w i = decide (fld w i i = 1) := by
  have h : (fld w i i).testBit 0 = bit w i := by rw [testBit_fld]; simp [bit]
  have hlt := fld_lt w i i
  rw [← h, Nat.testBit_zero, Nat.mod_eq_of_lt (by simpa using hlt)]

/-- A Tower whose core issues runs its step and is not held. -/
theorem State.running_of_issuing {s : State} {u : TId} (hs : s.issuing (.tower u) = true) :
    (s.tw u.toNat).run = .running ∧ (s.tw u.toNat).held = false := by
  obtain ⟨hx, -⟩ := (s.issuing_iff _).mp hs
  simpa [State.executes] using hx

/-! An engine instruction at its core (R24, R25, R265, R278). -/

section
variable {u : TId} {e : Eng} {i : Instr} {segs : List R3} {gs : List GReg} {q : GReg} {s : State}

/-- What a Tower holds once its core has pushed an instruction and gone on. -/
theorem tw_issued : (issued i u e segs gs q s).tw u.toNat =
    { (s.tw u.toNat).setQueue e ((s.tw u.toNat).queue e ++ [entryOf i u segs gs q s]) with
      serial := (s.tw u.toNat).serial + 1, core := passed (s.core (.tower u)) } := by
  have hc : ∀ r : State, (r.countInst (.tower u)).tw u.toNat = r.tw u.toNat := fun _ => rfl
  simp [issued, State.retire, State.retireTo, hc, State.setCore, State.core, passed]

theorem run_issued : ((issued i u e segs gs q s).tw u.toNat).run = (s.tw u.toNat).run := by simp [tw_issued]
theorem held_issued : ((issued i u e segs gs q s).tw u.toNat).held = (s.tw u.toNat).held := by simp [tw_issued]
theorem stop_issued : ((issued i u e segs gs q s).tw u.toNat).stop e = (s.tw u.toNat).stop e := by
  rw [tw_issued]; cases e <;> rfl
theorem queue_issued : ((issued i u e segs gs q s).tw u.toNat).queue e =
    (s.tw u.toNat).queue e ++ [entryOf i u segs gs q s] := by
  rw [tw_issued]; cases e <;> rfl
theorem issued_mem : (issued i u e segs gs q s).mem = s.mem := rfl
theorem issued_stepOf : (issued i u e segs gs q s).stepOf u.toNat = s.stepOf u.toNat := by
  have steps : (issued i u e segs gs q s).steps = s.steps := rfl
  simp [State.stepOf, steps, tw_issued]

/-- The push and the retirement of an instruction, as the statements put it. -/
theorem push_retire_eq_issued :
    let sp := s.rd (Reg.vecSpan u.toNat)
    let s' := s.modTw u.toNat (fun w => w.pushEntry e (.insn i) segs (gs.map (s.core (.tower u)).getG)
      ((s.core (.tower u)).getQ q) (fld sp 15 0) (fld sp 35 32) (bit sp 63))
    s'.retire (.tower u) (s'.core (.tower u)) = issued i u e segs gs q s := by
  simp only [bit_eq_fld]; rfl

variable (hs : s.issuing (.tower u) = true)
include hs

/-- An illegal encoding is not pushed: the core takes the exception with the word (R265). -/
theorem pushOp_illegal (is : Issue) (ht : CanTrap (.tower u) s) :
    ∃ t, pushOp u is e i false segs gs q s = .next t ∧
      Enters (.tower u) s t 0 0 1 ((encode i).setWidth 64) (s.core (.tower u)).pc := by
  obtain ⟨hv, hh⟩ := ht
  refine ⟨s.setCore (.tower u) ((s.core (.tower u)).enter 0 0 1 ((encode i).setWidth 64) (s.core (.tower u)).pc), ?_, rfl⟩
  simp [pushOp, onCoreAt_of_issuing _ _ _ _ hs, State.illegal, State.except, Core.vectorsOn, Core.handlerRuns, hv, hh]

/-- With room in the queue the instruction is pushed and the core goes on. -/
theorem pushOp_push_of_room (hq : ((s.tw u.toNat).queue e).length < 32) :
    pushOp u .push e i true segs gs q s = .next (issued i u e segs gs q s) := by
  obtain ⟨hx, -⟩ := (s.issuing_iff _).mp hs
  simp [pushOp, onCoreAt_of_issuing _ _ _ _ hs, hx, Nat.not_le.mpr hq, push_retire_eq_issued]

/-- A full queue stalls the core at the instruction. -/
theorem pushOp_push_of_full (hq : 32 ≤ ((s.tw u.toNat).queue e).length) :
    pushOp u .push e i true segs gs q s =
      .next (s.setCore (.tower u) (waitsAt (s.core (.tower u)) .queueFull i)) := by
  obtain ⟨hx, -⟩ := (s.issuing_iff _).mp hs
  simp [pushOp, onCoreAt_of_issuing _ _ _ _ hs, hx, hq, State.stall, State.modCore, waitsAt]

/-- Carried through behind nothing, the instruction is pushed and its engine then runs. -/
theorem pushOp_whole_of_empty (hq : (s.tw u.toNat).queue e = []) :
    pushOp u .whole e i true segs gs q s = .next ((issued i u e segs gs q s).engGo u.toNat e) := by
  obtain ⟨hx, -⟩ := (s.issuing_iff _).mp hs
  simp [pushOp, onCoreAt_of_issuing _ _ _ _ hs, hx, hq, push_retire_eq_issued]

/-- An instruction just pushed behind nothing is at its engine, which reads the structures that it meets. -/
theorem engUpset_issued (p : TowerPart) (hq : (s.tw u.toNat).queue e = []) (hr : (s.tw u.toNat).stop e = .running)
    (hm : e.meets i p = true) : (issued i u e segs gs q s).engUpset u e i p = true := by
  obtain ⟨hrun, hheld⟩ := State.running_of_issuing hs
  simp [State.engUpset, State.engineActs, State.enginesOn, run_issued, held_issued, stop_issued, queue_issued, hq, hr, hm, hrun,
    hheld]

/-- An error met there is a machine check. -/
theorem pushOp_upset_of_empty (p : TowerPart) (hq : (s.tw u.toNat).queue e = []) (he : e ≠ .str)
    (hr : (s.tw u.toNat).stop e = .running) (hm : e.meets i p = true) :
    pushOp u (.upset p) e i true segs gs q s =
      .next ((issued i u e segs gs q s).machineCheck (.tower u) (partRow p) 0) := by
  obtain ⟨hx, -⟩ := (s.issuing_iff _).mp hs
  simp [pushOp, onCoreAt_of_issuing _ _ _ _ hs, hx, hq, s.engGo_of_empty _ _ he hq, push_retire_eq_issued,
    engUpset_issued hs p hq hr hm]

end

/-- An instruction whose meaning is a push of a legal encoding issues as the statements say. -/
theorem issuesAs_of_pushOp {i : Issue → Instr} {u : TId} {e : Eng} {ok : Bool} {segs : List R3} {gs : List GReg} {q : GReg}
    {s : State} (hs : s.issuing (.tower u) = true) (hi : ∀ is, exec (i is) s = pushOp u is e (i is) ok segs gs q s)
    (hok : ok = true) : IssuesAs i u e segs gs q s := by
  subst hok
  unfold IssuesAs
  simp only [hi, List.length_eq_zero_iff]
  exact ⟨pushOp_push_of_room hs, pushOp_push_of_full hs, pushOp_whole_of_empty hs,
    fun p hq he hr hm => pushOp_upset_of_empty hs p hq he hr hm⟩

/-- An instruction whose meaning is a push of an illegal encoding is an illegal instruction at its core. -/
theorem illegal_of_pushOp {i : Instr} {u : TId} {is : Issue} {e : Eng} {ok : Bool} {segs : List R3} {gs : List GReg} {q : GReg}
    {s : State} (hs : s.issuing (.tower u) = true) (ht : CanTrap (.tower u) s)
    (hi : exec i s = pushOp u is e i ok segs gs q s) (hok : ok = false) :
    ∃ t, exec i s = .next t ∧ Enters (.tower u) s t 0 0 1 ((encode i).setWidth 64) (s.core (.tower u)).pc := by
  subst hok
  rw [hi]
  exact pushOp_illegal hs is ht

/-- An error that a free engine meets in an instruction pushed to it is a machine check. -/
theorem machineChecked_of_upset {i : Issue → Instr} {u : TId} {e : Eng} {segs : List R3} {gs : List GReg} {q : GReg} {s : State}
    (p : TowerPart) (hf : FreeEngine u e s) (hi : IssuesAs i u e segs gs q s) (he : e ≠ .str)
    (hm : e.meets (i (.upset p)) p = true) : ∃ t, exec (i (.upset p)) s = .next t ∧ MachineChecked u s t := by
  obtain ⟨hs, hq, hr, -, -⟩ := hf
  obtain ⟨-, -, -, hupset⟩ := hi
  obtain ⟨hrun, -⟩ := State.running_of_issuing hs
  exact ⟨_, hupset p (by simp [hq]) he hr hm,
    machineChecked_of_same issued_mem issued_stepOf (State.machineCheck_checked _ u _ _ (run_issued.trans hrun))⟩

end Sys2Proof.Machine
end

section

namespace Sys2Proof.Proofs
open Sys2Proof.Machine Sys2Proof.Says

/-- Settles O19: every engine instruction is a push to its engine's queue with its operands captured (R24, R25), an encoding that
R265 calls illegal is refused before the push, and an error that the engine meets is a machine check. -/
theorem engineIssue : Obligations.EngineIssue := by
  unfold Obligations.EngineIssue
  refine ⟨fun u d e2 sg sg2 a b s hs => ?_, fun u o p s hs => ?_, fun u is d sg e2 a b o p s => ?_, fun u d s hf => ?_⟩
  · -- Dome, Spire, Turret, tiles, streams: a guard of the statement is the encoding's own check.
    refine ⟨fun _ _ _ => ?_, ?_, ?_,
      fun _ _ _ hfmt => ⟨issuesAs_of_pushOp hs (fun _ => rfl) (decide_eq_true hfmt),
        issuesAs_of_pushOp hs (fun _ => rfl) (decide_eq_true hfmt)⟩,
      ?_, ?_, ?_, ?_, fun _ _ => ?_, ?_, fun _ => ?_, ?_,
      fun _ _ hfmt hp => issuesAs_of_pushOp hs (fun _ => rfl) (by rw [decide_eq_true hfmt, decide_eq_true hp]; rfl),
      fun ha => issuesAs_of_pushOp hs (fun _ => rfl) (decide_eq_true ha),
      fun _ _ hcount => issuesAs_of_pushOp hs (fun _ => rfl) (decide_eq_true hcount),
      ?_, ?_, ?_, fun _ => ⟨?_, ?_⟩, ?_, fun _ => ⟨?_, ?_, ?_, fun _ => ?_⟩⟩
    all_goals exact issuesAs_of_pushOp hs (fun _ => rfl) rfl
  · -- The vector unit.
    refine ⟨fun i hi => issuesAs_of_pushOp (ok := true) hs (fun is => ?arith) rfl,
      fun hb => issuesAs_of_pushOp hs (fun _ => rfl) (decide_eq_true hb),
      fun hd i hi => issuesAs_of_pushOp hs (fun is => ?compare) (decide_eq_true hd),
      fun _ _ _ _ _ _ => issuesAs_of_pushOp hs (fun _ => rfl) rfl,
      fun i hi => issuesAs_of_pushOp (ok := true) hs (fun is => ?memory) rfl,
      fun hv _ => issuesAs_of_pushOp hs (fun _ => rfl) (decide_eq_true hv),
      fun _ _ _ => ⟨?_, ?_, ?_, ?_⟩, fun _ => ?_⟩
    case arith | compare | memory => fin_cases hi <;> rfl
    all_goals exact issuesAs_of_pushOp hs (fun _ => rfl) rfl
  · -- Encodings whose check fails.
    intro c hs ht ill
    have refused {i : Instr} {e : Eng} {ok : Bool} {segs : List R3} {gs : List GReg} {q : GReg}
        (hi : exec i s = pushOp u is e i ok segs gs q s) (hok : ok = false) : ill i := illegal_of_pushOp hs ht hi hok
    have notLt {m n : Nat} (h : n ≤ m) : decide (m < n) = false := decide_eq_false (Nat.not_lt.mpr h)
    exact ⟨fun _ _ _ h => ⟨refused rfl (notLt h), refused rfl (notLt h)⟩,
      fun _ _ _ h => refused rfl (by rw [notLt h]; rfl),
      fun _ _ ha => refused rfl (by rw [decide_eq_false ha]; simp),
      fun _ hfmt => refused rfl (by rw [decide_eq_false hfmt.ne']; simp),
      refused rfl rfl, fun _ => refused rfl rfl, fun hb => refused rfl (decide_eq_false hb),
      fun hd => ⟨refused rfl (notLt hd), refused rfl (notLt hd), refused rfl (notLt hd), refused rfl (notLt hd)⟩,
      fun hv _ => refused rfl (notLt hv)⟩
  · -- A free Dome that meets an error in a tile.
    have ⟨hs, _⟩ := hf
    exact machineChecked_of_upset (i := fun is => .dmFree u is d) .dome hf (issuesAs_of_pushOp hs (fun _ => rfl) rfl)
      (by decide) rfl

end Sys2Proof.Proofs
end

section
/-! PROOFS. Results and flags of the integer ALU (R266–R268): how an ALU instruction completes, its arithmetic as bit-vector
operations, and counts of bits. -/

namespace Sys2Proof.Machine
open Sys2Proof.Says

/-! An ALU instruction at its core. -/

section
variable {i : Instr} {c : CoreId} {d a b : GReg} {f : Bool} {s : State}

/-- An ALU instruction that completes gives its result to gD and, with F = 1, its flags. -/
theorem givesAlu_of_aluDone {r : Alu} (hi : exec i s = .next (aluDone c d f r s)) :
    GivesAlu i c s d f r.res r.c r.v := by
  have hc : (aluDone c d f r s).core c = { (s.core c).setG d r.res with
      flags := aluFlagsOf f (s.core c).flags r.res r.c r.v, pc := (s.core c).pc + 4, wait := .none } := by
    simp only [aluDone, State.core_retire, aluFlagsOf, aluFlags, BitVec.msb_eq_getLsbD_last]
    cases f <;> simp [bit]
  refine ⟨_, hi, State.retireTo_eq _ _ _ _, fun g => ?_, ?_⟩
  · rw [hc]; exact Core.getG_setG _ d g r.res
  · rw [hc, Core.setG_eq]

variable {res : Dword} {cy ov : Bool} (hs : s.issuing c = true)
include hs

theorem givesAlu_of_alu2 (op : Dword → Dword → Dword → Alu) (hi : exec i s = alu2 c d a b f op s)
    (hr : op ((s.core c).getG a) ((s.core c).getG b) (s.core c).flags = ⟨res, cy, ov⟩) :
    GivesAlu i c s d f res cy ov := by
  simp only [alu2, onCore_of_issuing c s _ hs, hr] at hi
  exact givesAlu_of_aluDone hi

theorem givesAlu_of_plain (op : Dword → Dword → Dword) (hi : exec i s = alu2 c d a b f (fun x y _ => aluPlain (op x y)) s)
    (hr : op ((s.core c).getG a) ((s.core c).getG b) = res) : GivesAlu i c s d f res false false :=
  givesAlu_of_alu2 hs _ hi (congrArg aluPlain hr)

theorem givesAlu_of_alu1 (op : Dword → Dword) (hi : exec i s = alu1 c d a f op s)
    (hr : op ((s.core c).getG a) = res) : GivesAlu i c s d f res false false := by
  rw [alu1, onCore_of_issuing c s _ hs, hr] at hi
  exact givesAlu_of_aluDone hi

theorem givesAlu_of_aluImm (op : Dword → Dword) (hi : exec i s = aluImm c d a op s) :
    GivesAlu i c s d false (op ((s.core c).getG a)) false false := by
  rw [aluImm, onCore_of_issuing c s _ hs] at hi
  exact givesAlu_of_aluDone hi

end

/-! Products (R266). -/

/-- An integer is outside 64 bits where its low 64 bits are another number. -/
theorem outside64_eq (i : Int) : outside64 i = decide ((dw i).toInt ≠ i) := by
  have fits : (dw i).toInt = i ↔ -(2 ^ 63) ≤ i ∧ i < 2 ^ 63 := by
    rw [dw, BitVec.toInt_ofInt, Int.bmod_def]
    omega
  simp only [outside64, ne_eq, fits, ← Bool.decide_or]
  exact decide_eq_decide.mpr (by omega)

theorem dw_toInt_mul (x y : Dword) : dw (x.toInt * y.toInt) = x * y := by
  rw [dw, BitVec.ofInt_mul, BitVec.ofInt_toInt, BitVec.ofInt_toInt]

/-- The upper 64 of the low 128 bits of an integer. -/
theorem extractLsb'_ofInt_128 (i : Int) : (BitVec.ofInt 128 i).extractLsb' 64 64 = dw (i / 2 ^ 64) := by
  apply BitVec.eq_of_toNat_eq
  rw [dw, BitVec.extractLsb'_toNat, BitVec.toNat_ofInt, BitVec.toNat_ofInt, Nat.shiftRight_eq_div_pow]
  omega

theorem aluMul_eq (x y : Dword) : aluMul x y = ⟨x * y, false, decide ((x * y).toInt ≠ x.toInt * y.toInt)⟩ := by
  rw [aluMul, outside64_eq, dw_toInt_mul]

theorem aluMulh_eq (x y : Dword) :
    aluMulh x y = ⟨(x.signExtend 128 * y.signExtend 128).extractLsb' 64 64, false, false⟩ := by
  rw [aluMulh, BitVec.signExtend, BitVec.signExtend, ← BitVec.ofInt_mul, extractLsb'_ofInt_128]

theorem aluMulhu_eq (x y : Dword) :
    aluMulhu x y = ⟨(x.setWidth 128 * y.setWidth 128).extractLsb' 64 64, false, false⟩ := by
  have wide : x.setWidth 128 * y.setWidth 128 = BitVec.ofInt 128 ((x.toNat * y.toNat : Nat) : Int) := by
    rw [BitVec.ofInt_natCast, BitVec.ofNat_mul, BitVec.ofNat_toNat, BitVec.ofNat_toNat]
  rw [wide, extractLsb'_ofInt_128]
  exact congrArg (Alu.mk · false false) (BitVec.ofInt_natCast 64 (x.toNat * y.toNat / 2 ^ 64)).symm

/-! Divisions (R267). -/

/-- A signed division sets V where the divisor is 0 and where −2^63 is divided by −1. -/
theorem divCorner_signed (x y : Dword) :
    divCorner true x y = decide (y = 0 ∨ x = BitVec.intMin 64 ∧ y = -1) := by
  have hx : x.toInt = -(2 ^ 63) ↔ x = BitVec.intMin 64 := BitVec.toInt_inj (y := BitVec.intMin 64)
  have hy : y.toInt = -1 ↔ y = -1 := BitVec.toInt_inj (y := -1)
  simp only [divCorner, hx, hy, Bool.true_and, Bool.decide_or, Bool.decide_and]

theorem divCorner_unsigned (x y : Dword) : divCorner false x y = decide (y = 0) := by simp [divCorner]

/-- The quotient of −2^63 by −1 is the low 64 bits of 2^63, which `sdiv` gives too. -/
theorem dw_tdiv (x y : Dword) : dw (x.toInt.tdiv y.toInt) = x.sdiv y := by
  apply BitVec.eq_of_toInt_eq
  rw [dw, BitVec.toInt_ofInt, BitVec.toInt_sdiv]

theorem dw_tmod (x y : Dword) : dw (x.toInt.tmod y.toInt) = x.srem y := by
  rw [dw, ← BitVec.toInt_srem, BitVec.ofInt_toInt]

theorem aluDiv_eq (x y : Dword) :
    aluDiv x y = ⟨if y = 0 then 0 else x.sdiv y, false, decide (y = 0 ∨ x = BitVec.intMin 64 ∧ y = -1)⟩ := by
  rw [aluDiv, dw_tdiv, divCorner_signed]

theorem aluRem_eq (x y : Dword) :
    aluRem x y = ⟨if y = 0 then x else x.srem y, false, decide (y = 0 ∨ x = BitVec.intMin 64 ∧ y = -1)⟩ := by
  rw [aluRem, dw_tmod, divCorner_signed]

theorem aluDivu_eq (x y : Dword) : aluDivu x y = ⟨if y = 0 then 0 else x / y, false, decide (y = 0)⟩ := by
  rw [aluDivu, BitVec.udiv_def, divCorner_unsigned]

theorem aluRemu_eq (x y : Dword) : aluRemu x y = ⟨if y = 0 then x else x % y, false, decide (y = 0)⟩ := by
  rw [aluRemu, BitVec.umod_def, divCorner_unsigned]

/-! Shift counts and order (R266). -/

theorem toNat_and_63 (y : Dword) : (y &&& 63).toNat = y.toNat % 64 := Nat.and_two_pow_sub_one_eq_mod y.toNat 6

theorem smin_eq_ite_slt (x y : Dword) : (if x.toInt ≤ y.toInt then x else y) = if y.slt x then y else x := by
  simp only [BitVec.slt_iff_toInt_lt, ← Int.not_lt, ite_not]

theorem umin_eq_ite_lt (x y : Dword) : (if x.toNat ≤ y.toNat then x else y) = if y < x then y else x := by
  simp only [BitVec.lt_def, ← Nat.not_lt, ite_not]

/-- Of two equal operands it does not matter which a maximum takes. -/
theorem smax_eq_ite_slt (x y : Dword) : (if x.toInt ≤ y.toInt then y else x) = if x.slt y then y else x := by
  rcases eq_or_ne x y with rfl | hne
  · simp
  · simp only [BitVec.slt_iff_toInt_lt, Ne.le_iff_lt (BitVec.toInt_inj.not.mpr hne)]

theorem umax_eq_ite_lt (x y : Dword) : (if x.toNat ≤ y.toNat then y else x) = if x < y then y else x := by
  rcases eq_or_ne x y with rfl | hne
  · simp
  · simp only [BitVec.lt_def, Ne.le_iff_lt (BitVec.toNat_inj.not.mpr hne)]

/-! Counts of bits (R266). -/

theorem bitLen_le_iff (v k : Nat) : bitLen v ≤ k ↔ v < 2 ^ k := by
  unfold bitLen
  split
  next h => simp [h]
  next h => exact Nat.log2_lt h

/-- The highest bit set of a number is the last that its length counts. -/
theorem testBit_bitLen (v k : Nat) (h : bitLen v = k + 1) : v.testBit k = true := by
  unfold bitLen at h
  split at h
  next => omega
  next hv => rw [← Nat.succ.inj h]; exact Nat.testBit_log2 hv

theorem clz64_le (x : Dword) : clz64 x ≤ 64 := Nat.sub_le _ _

theorem getMsbD_of_lt_clz64 (x : Dword) (j : Nat) (hj : j < clz64 x) : x.getMsbD j = false := by
  have small : x.toNat < 2 ^ (63 - j) := (bitLen_le_iff _ _).mp (by unfold clz64 at hj; omega)
  simp [BitVec.getMsbD_eq_getLsbD, BitVec.getLsbD, Nat.testBit_lt_two_pow small]

theorem getMsbD_clz64 (x : Dword) (h : clz64 x < 64) : x.getMsbD (clz64 x) = true := by
  have hle : bitLen x.toNat ≤ 64 := (bitLen_le_iff _ _).mpr x.isLt
  have top : x.toNat.testBit (63 - clz64 x) = true := testBit_bitLen _ _ (by unfold clz64 at h ⊢; omega)
  simpa [BitVec.getMsbD_eq_getLsbD, BitVec.getLsbD, h] using top

theorem ctzFrom_le (n v : Nat) : ctzFrom n v ≤ n := by
  induction n generalizing v with
  | zero => rfl
  | succ n ih => have := ih (v / 2); simp only [ctzFrom]; split <;> omega

theorem testBit_of_lt_ctzFrom (n v j : Nat) (hj : j < ctzFrom n v) : v.testBit j = false := by
  induction n generalizing v j with
  | zero => simp [ctzFrom] at hj
  | succ n ih =>
    simp only [ctzFrom] at hj
    split at hj
    next => omega
    next even =>
      cases j with
      | zero => simpa using even
      | succ j => rw [Nat.testBit_succ]; exact ih _ _ (by omega)

theorem testBit_ctzFrom (n v : Nat) (h : ctzFrom n v < n) : v.testBit (ctzFrom n v) = true := by
  induction n generalizing v with
  | zero => simp at h
  | succ n ih =>
    simp only [ctzFrom] at h ⊢
    split
    next odd => simpa using odd
    next even =>
      rw [if_neg even] at h
      rw [Nat.add_comm, Nat.testBit_succ]
      exact ih _ (by omega)

theorem popcount_eq_countP (n v : Nat) : popcount n v = (List.range n).countP v.testBit := by
  induction n generalizing v with
  | zero => rfl
  | succ n ih =>
    have shifted : v.testBit ∘ Nat.succ = (v / 2).testBit := funext (Nat.testBit_succ v)
    have low : v % 2 = if v.testBit 0 then 1 else 0 := by
      rcases Nat.mod_two_eq_zero_or_one v with h | h <;> simp [h]
    rw [popcount, List.range_succ_eq_map, List.countP_cons, List.countP_map, shifted, ← ih, ← low, Nat.add_comm]

/-! Constants (R268). -/

/-- `kset`, bit by bit: zeros below the immediate, and copies of its sign above. -/
theorem getLsbD_kset (imm : Half) (h : BitVec 2) (j : Nat) (hj : j < 64) :
    (imm.signExtend 64 <<< (16 * h.toNat)).getLsbD j =
      if j < 16 * h.toNat then false
      else if j < 16 * h.toNat + 16 then imm.getLsbD (j - 16 * h.toNat) else imm.getLsbD 15 := by
  rw [BitVec.getLsbD_shiftLeft, BitVec.getLsbD_signExtend, BitVec.msb_eq_getLsbD_last]
  by_cases below : j < 16 * h.toNat
  · simp [below]
  · have place : j < 16 * h.toNat + 16 ↔ j - 16 * h.toNat < 16 := by omega
    simp [hj, below, place, show j - 16 * h.toNat < 64 by omega]

/-- `kins`, bit by bit. -/
theorem getLsbD_kins (x : Dword) (imm : Half) (h : BitVec 2) (j : Nat) :
    (setFld x (16 * h.toNat + 15) (16 * h.toNat) imm.toNat).getLsbD j =
      if 16 * h.toNat ≤ j ∧ j < 16 * h.toNat + 16 then imm.getLsbD (j - 16 * h.toNat) else x.getLsbD j := by
  have top : j < 16 * h.toNat + 16 ↔ j ≤ 16 * h.toNat + 15 := Nat.lt_succ_iff
  rw [getLsbD_setFld _ _ _ _ _ (by omega) (by omega), BitVec.testBit_toNat]
  simp only [top]

end Sys2Proof.Machine
end

section

namespace Sys2Proof.Proofs
open Sys2Proof.Machine Sys2Proof.Says

/-- Settles O3: the model's signed and unsigned arithmetic on numbers is the bit vectors' own, corners of R267 included. -/
theorem aluProductsAndDivisions : Obligations.AluProductsAndDivisions := by
  unfold Obligations.AluProductsAndDivisions
  refine ⟨fun c d a b f s hs => ⟨?mul, ?mulh, ?mulhu⟩, fun c d a b f s hs => ⟨?div, ?rem, ?divu, ?remu⟩⟩
  case mul => exact givesAlu_of_alu2 hs (fun x y _ => aluMul x y) rfl (aluMul_eq _ _)
  case mulh => exact givesAlu_of_alu2 hs (fun x y _ => aluMulh x y) rfl (aluMulh_eq _ _)
  case mulhu => exact givesAlu_of_alu2 hs (fun x y _ => aluMulhu x y) rfl (aluMulhu_eq _ _)
  case div => exact givesAlu_of_alu2 hs (fun x y _ => aluDiv x y) rfl (aluDiv_eq _ _)
  case rem => exact givesAlu_of_alu2 hs (fun x y _ => aluRem x y) rfl (aluRem_eq _ _)
  case divu => exact givesAlu_of_alu2 hs (fun x y _ => aluDivu x y) rfl (aluDivu_eq _ _)
  case remu => exact givesAlu_of_alu2 hs (fun x y _ => aluRemu x y) rfl (aluRemu_eq _ _)

/-- Settles O4: results and cleared flags of the instructions without carry or overflow, the counts by what they count, and
the constants bit by bit. -/
theorem aluBitwiseCountsConstants : Obligations.AluBitwiseCountsConstants := by
  unfold Obligations.AluBitwiseCountsConstants
  refine ⟨fun c d a b f s hs => ?_, fun c d a f s hs => ?_, fun c d imm h s hs => ?_⟩
  · -- Bitwise functions, shifts and order.
    refine ⟨?and, ?or, ?xor, ?sll, ?srl, ?sra, ?min, ?max, ?minu, ?maxu, fun k => ⟨?andi, ?ori, ?xori⟩,
      fun m => ⟨?slli, ?srli, ?srai⟩⟩
    case and => exact givesAlu_of_plain hs (· &&& ·) rfl rfl
    case or => exact givesAlu_of_plain hs (· ||| ·) rfl rfl
    case xor => exact givesAlu_of_plain hs (· ^^^ ·) rfl rfl
    case sll => exact givesAlu_of_plain hs (fun x y => x <<< (y.toNat % 64)) rfl (by rw [toNat_and_63])
    case srl => exact givesAlu_of_plain hs (fun x y => x >>> (y.toNat % 64)) rfl (by rw [toNat_and_63])
    case sra => exact givesAlu_of_plain hs (fun x y => x.sshiftRight (y.toNat % 64)) rfl (by rw [toNat_and_63])
    case min => exact givesAlu_of_plain hs (fun x y => if x.toInt ≤ y.toInt then x else y) rfl (smin_eq_ite_slt _ _)
    case max => exact givesAlu_of_plain hs (fun x y => if x.toInt ≤ y.toInt then y else x) rfl (smax_eq_ite_slt _ _)
    case minu => exact givesAlu_of_plain hs (fun x y => if x.toNat ≤ y.toNat then x else y) rfl (umin_eq_ite_lt _ _)
    case maxu => exact givesAlu_of_plain hs (fun x y => if x.toNat ≤ y.toNat then y else x) rfl (umax_eq_ite_lt _ _)
    case andi => exact givesAlu_of_aluImm hs (· &&& k.setWidth 64) rfl
    case ori => exact givesAlu_of_aluImm hs (· ||| k.setWidth 64) rfl
    case xori => exact givesAlu_of_aluImm hs (· ^^^ k.setWidth 64) rfl
    case slli => exact givesAlu_of_aluImm hs (· <<< m.toNat) rfl
    case srli => exact givesAlu_of_aluImm hs (· >>> m.toNat) rfl
    case srai => exact givesAlu_of_aluImm hs (·.sshiftRight m.toNat) rfl
  · -- Counts.
    refine ⟨⟨clz64 _, clz64_le _, getMsbD_of_lt_clz64 _, getMsbD_clz64 _, ?clz⟩,
      ⟨ctz64 _, ctzFrom_le _ _, testBit_of_lt_ctzFrom _ _, testBit_ctzFrom _ _, ?ctz⟩, ?popc⟩
    case clz => exact givesAlu_of_alu1 hs (fun x => BitVec.ofNat 64 (clz64 x)) rfl rfl
    case ctz => exact givesAlu_of_alu1 hs (fun x => BitVec.ofNat 64 (ctz64 x)) rfl rfl
    case popc =>
      refine givesAlu_of_alu1 hs (fun x => BitVec.ofNat 64 (popcount 64 x.toNat)) rfl ?_
      rw [popcount_eq_countP, List.countP_eq_length_filter]; rfl
  · -- Constants.
    refine ⟨⟨imm.signExtend 64 <<< (16 * h.toNat), ?kset, getLsbD_kset imm h⟩,
      ⟨setFld _ (16 * h.toNat + 15) (16 * h.toNat) imm.toNat, ?kins, fun j _ => getLsbD_kins _ imm h j⟩⟩
    case kset => exact givesAlu_of_aluImm (a := 0) hs (fun _ => imm.signExtend 64 <<< (16 * h.toNat)) rfl
    case kins => exact givesAlu_of_aluImm hs (setFld · (16 * h.toNat + 15) (16 * h.toNat) imm.toNat) rfl

end Sys2Proof.Proofs
end

section
/-! PROOFS. The fault queue (R389–R396): enabling it, the write of its oldest record, the resolutions of an entry, and prefetch
requests. -/

namespace Sys2Proof.Machine
open Sys2Proof.Says

/-! Interrupt messages leave all that the fault queue speaks of (R536). -/

/-- Bringing the interrupt messages up to date changes nothing but them. -/
theorem State.irqSync_eq (s : State) :
    s.irqSync = { s with irqMsgs := s.irqSync.irqMsgs, irqLevel := s.irqSync.irqLevel } := by
  simp only [State.irqSync]; split <;> rfl

@[simp] theorem State.irqSync_xlt (s : State) : s.irqSync.xlt = s.xlt := by rw [State.irqSync_eq]
@[simp] theorem State.irqSync_steps (s : State) : s.irqSync.steps = s.steps := by rw [State.irqSync_eq]
@[simp] theorem State.irqSync_keep0 (s : State) : s.irqSync.keep0 = s.keep0 := by rw [State.irqSync_eq]
@[simp] theorem State.irqSync_keep1 (s : State) : s.irqSync.keep1 = s.keep1 := by rw [State.irqSync_eq]
@[simp] theorem State.tw_irqSync (s : State) (t : Nat) : s.irqSync.tw t = s.tw t := by simp [State.tw]
@[simp] theorem State.f_irqSync (s : State) (r : RegField) : s.irqSync.f r = s.f r := by simp [State.f, State.rd]

@[simp] theorem State.irqLatch_mem (s : State) (b : Nat) : (s.irqLatch b).mem = s.mem := by simp [State.irqLatch]
@[simp] theorem State.irqLatch_hostMem (s : State) (b : Nat) : (s.irqLatch b).hostMem = s.hostMem := by simp [State.irqLatch]
@[simp] theorem State.irqLatch_xlt (s : State) (b : Nat) : (s.irqLatch b).xlt = s.xlt := by simp [State.irqLatch]
theorem State.f_irqLatch (s : State) (b : Nat) (r : RegField) (h : r.addr ≠ Reg.hstIrqPend) :
    (s.irqLatch b).f r = s.f r := by
  rw [State.irqLatch, State.f_irqSync]
  simp [State.f, State.rd_wr, h]

/-- A source latched where it is enabled. -/
def State.latched (s : State) (on : Bool) (b : Nat) : State := if on then s.irqLatch b else s

section
variable (s : State) (on : Bool) (b : Nat)

theorem State.latched_mem : (s.latched on b).mem = s.mem := by cases on <;> simp [State.latched]
theorem State.latched_hostMem : (s.latched on b).hostMem = s.hostMem := by cases on <;> simp [State.latched]
theorem State.latched_xlt : (s.latched on b).xlt = s.xlt := by cases on <;> simp [State.latched]
theorem State.f_latched (r : RegField) (h : r.addr ≠ Reg.hstIrqPend) : (s.latched on b).f r = s.f r := by
  cases on <;> simp [State.latched, s.f_irqLatch b r h]

end

/-! Fields after writes. -/

/-- A field reads as before where another field was written, of the same register too. -/
theorem State.f_setF_disjoint (s : State) (r q : RegField) (v : Nat) (h : r.hi < 64) (hl : r.lo ≤ r.hi)
    (hd : q.addr ≠ r.addr ∨ q.hi < r.lo ∨ r.hi < q.lo) : (s.setF r v).f q = s.f q := by
  by_cases ha : q.addr = r.addr
  · simp only [State.f, State.setF, ha, State.rd_wr_same]
    exact fld_setFld_other _ _ _ _ _ _ h hl (hd.resolve_left (not_not.mpr ha))
  · exact s.f_setF_other r q v ha

theorem holds_setF_same (s : State) (r : RegField) (v : Nat) (h : r.hi < 64) (hl : r.lo ≤ r.hi) : Holds (s.setF r v) r v :=
  s.f_setF_same r v h hl

/-- A counter that stops at its largest value counts. -/
theorem counts_satF (s : State) (r : RegField) (n : Nat) (h : r.hi < 64) (hl : r.lo ≤ r.hi) : Counts s (s.satF r n) r n := by
  have hpos := Nat.two_pow_pos (r.hi + 1 - r.lo)
  rw [Counts, State.satF, State.f_setF_same _ _ _ h hl, satAdd, Nat.mod_eq_of_lt (by omega)]

/-- The field of one bit is that bit. -/
theorem fld_eq_b2n_bit (w : Dword) (i : Nat) : fld w i i = b2n (bit w i) := by
  have hlt : fld w i i < 2 := by simpa using fld_lt w i i
  rw [bit_eq_fld, b2n]
  by_cases h : fld w i i = 1
  · simp [h]
  · simp [h]; omega

/-- A bit whose only access code is RW takes the value written (R15). -/
theorem bit_regMix_rw (old v grant : Dword) (info : RegInfo) (i : Nat) (hi : i < 64) (hg : bit grant i = true)
    (hrw : info.rw.testBit i = true) (hc : info.w1c.testBit i = false) (hs : info.w1s.testBit i = false) :
    bit (regMix old v info grant) i = bit v i := by
  unfold bit at hg
  simp only [bit, regMix, BitVec.getLsbD_or, BitVec.getLsbD_and, BitVec.getLsbD_not, BitVec.getLsbD_ofNat, hi, hg, hrw, hc, hs]
  simp

/-! `XLT_CTRL` (R389). -/

/-- Each enable of `XLT_CTRL` takes its bit of the value written. -/
theorem State.f_plainWrite_xltCtrl (s : State) (v : Dword) (i : Nat) (hi : i < 4) :
    (s.plainWrite Reg.xltCtrl v (-1)).f ⟨Reg.xltCtrl, i, i⟩ = b2n (bit v i) := by
  have written : s.plainWrite Reg.xltCtrl v (-1) = s.wr Reg.xltCtrl (regMix (s.rd Reg.xltCtrl) v ⟨0, 0xF, 0, 0⟩ (-1)) := rfl
  obtain ⟨granted, rw_i⟩ : bit (-1) i = true ∧ (0xF).testBit i = true := by interval_cases i <;> exact ⟨rfl, rfl⟩
  rw [written, State.f, State.rd_wr_same, fld_eq_b2n_bit,
    bit_regMix_rw _ _ _ _ _ (hi.trans (by decide)) granted rw_i (Nat.zero_testBit i) (Nat.zero_testBit i)]

theorem State.f_plainWrite_fqEn (s : State) (v : Dword) :
    (s.plainWrite Reg.xltCtrl v (-1)).f Reg.xltCtrlFqEn = b2n (bit v 3) := s.f_plainWrite_xltCtrl v 3 (by decide)

/-- What a write to `XLT_CTRL` makes of a queue that is off: with FQ_EN it is on, its counts cleared, where the ring lies in the
window, and otherwise it stays off with FQ_ERR. -/
def State.fqEnabled (s : State) (v : Dword) : State :=
  let s' := s.plainWrite Reg.xltCtrl v (-1)
  if bit v 3 then
    if inWindow (s.f Reg.xltFqBaseAddr * 64) 0x40000 then (s'.setF Reg.xltFqProdProd 0).setF Reg.xltFqConsCons 0
    else (s'.setF Reg.xltCtrlFqEn 0).setF Reg.xltStatFqErr 1
  else s'

theorem State.wrXltCtrl_of_off (s : State) (v : Dword) (h : s.fb Reg.xltCtrlFqEn = false) :
    s.wrXltCtrl v (-1) = (s.fqEnabled v).irqSync := by
  have on : (s.plainWrite Reg.xltCtrl v (-1)).fb Reg.xltCtrlFqEn = bit v 3 := by
    rw [State.fb, s.f_plainWrite_fqEn]
    cases bit v 3 <;> rfl
  have base : (s.plainWrite Reg.xltCtrl v (-1)).f Reg.xltFqBaseAddr = s.f Reg.xltFqBaseAddr :=
    congrArg (fld · 44 6) (s.rd_wr _ Reg.xltFqBase _)
  unfold State.wrXltCtrl State.fqEnabled
  generalize s.plainWrite Reg.xltCtrl v (-1) = w at on base ⊢
  simp [h, on, base]

theorem inWindow_iff (a n : Nat) : inWindow a n = true ↔ 0x180000000000 ≤ a ∧ a + n ≤ 0x1F0000000000 := by
  simp [inWindow]

section
variable (s : State) (v : Dword)

theorem State.fqEnabled_mem : (s.fqEnabled v).mem = s.mem := by
  unfold State.fqEnabled; split <;> [(split <;> rfl); rfl]
theorem State.fqEnabled_xlt : (s.fqEnabled v).xlt = s.xlt := by
  unfold State.fqEnabled; split <;> [(split <;> rfl); rfl]

/-- The interrupt enables take their bits whether or not the queue is enabled. -/
theorem State.fqEnabled_ie (i : Nat) (hi : i < 3) : Holds (s.fqEnabled v) ⟨Reg.xltCtrl, i, i⟩ (b2n (bit v i)) := by
  have fits : b2n (bit v i) % 2 ^ (i + 1 - i) = b2n (bit v i) := by cases bit v i <;> simp [b2n]
  rw [Holds, fits, ← s.f_plainWrite_xltCtrl v i (by omega)]
  have other : Reg.xltCtrl ≠ Reg.xltFqCons ∧ Reg.xltCtrl ≠ Reg.xltFqProd ∧ Reg.xltCtrl ≠ Reg.xltStat := by decide
  obtain ⟨cons, prod, stat⟩ := other
  unfold State.fqEnabled
  split
  · split
    · rw [State.f_setF_other _ _ _ _ cons, State.f_setF_other _ _ _ _ prod]
    · rw [State.f_setF_other _ _ _ _ stat, State.f_setF_disjoint _ _ _ _ (by decide) (by decide) (.inr (.inl hi))]
  · rfl

theorem State.fqEnabled_of_clear (h : bit v 3 = false) : Holds (s.fqEnabled v) Reg.xltCtrlFqEn 0 := by
  have off := s.f_plainWrite_fqEn v
  rw [h] at off
  unfold State.fqEnabled
  rw [if_neg (by simp [h])]
  exact off

theorem State.fqEnabled_of_inside (h : bit v 3 = true) (hin : inWindow (s.f Reg.xltFqBaseAddr * 64) 0x40000 = true) :
    Holds (s.fqEnabled v) Reg.xltCtrlFqEn 1 ∧ Holds (s.fqEnabled v) Reg.xltFqProdProd 0 ∧
      Holds (s.fqEnabled v) Reg.xltFqConsCons 0 := by
  have on : (s.plainWrite Reg.xltCtrl v (-1)).f Reg.xltCtrlFqEn = 1 := by
    rw [s.f_plainWrite_fqEn, h]; rfl
  simp only [State.fqEnabled, h, hin, if_true]
  refine ⟨?_, ?_, holds_setF_same _ _ _ (by decide) (by decide)⟩
  · rw [Holds, State.f_setF_other _ _ _ _ (by decide), State.f_setF_other _ _ _ _ (by decide), on]; rfl
  · rw [Holds, State.f_setF_other _ _ _ _ (by decide)]; exact holds_setF_same _ _ _ (by decide) (by decide)

theorem State.fqEnabled_of_outside (h : bit v 3 = true) (hout : inWindow (s.f Reg.xltFqBaseAddr * 64) 0x40000 = false) :
    Holds (s.fqEnabled v) Reg.xltCtrlFqEn 0 ∧ Holds (s.fqEnabled v) Reg.xltStatFqErr 1 := by
  simp only [State.fqEnabled, h, hout, if_true, Bool.false_eq_true, if_false]
  refine ⟨?_, holds_setF_same _ _ _ (by decide) (by decide)⟩
  rw [Holds, State.f_setF_other _ _ _ _ (by decide)]; exact holds_setF_same _ _ _ (by decide) (by decide)

end

/-! The write of the oldest record (R389, R390, R395). -/

/-- A record has 64 bytes. -/
theorem faultRecord_length (f : XFault) (id roll : Nat) : (faultRecord f id roll).length = 64 := by simp [faultRecord]

/-- The oldest fault of the table without a record is written next. -/
theorem State.nextRecord_of_head {s : State} {f : XFault} {rest : List XFault} (hf : s.xlt.faults = f :: rest)
    (hid : f.id = none) (ht : f.inTable = true) : s.nextRecord = some f := by
  simp [State.nextRecord, State.unwritten, hf, hid, ht]

theorem State.keepWrite_record_ok (s : State) (a : Nat) (f : XFault) (id roll : Nat) (h : inWindow a 64 = true) :
    s.keepWrite a (faultRecord f id roll) .ok = (false, s.storeHost (s.hostAddr a) (faultRecord f id roll)) := by
  simp [State.keepWrite, faultRecord_length, h]
theorem State.keepWrite_record_hostErr (s : State) (a : Nat) (f : XFault) (id roll : Nat) (h : inWindow a 64 = true) :
    s.keepWrite a (faultRecord f id roll) .hostErr = (true, s.setF Reg.hstStatHosterr 1) := by
  simp [State.keepWrite, faultRecord_length, h]

/-- Every record that waits is held, and those written stay as they are. -/
theorem State.holdUnwritten_faults (s : State) :
    s.holdUnwritten.xlt.faults = s.xlt.faults.map (fun f => if f.id.isNone then { f with held := true } else f) := by
  simp [State.holdUnwritten, State.satF]
theorem State.holdUnwritten_hostMem (s : State) : s.holdUnwritten.hostMem = s.hostMem := by simp [State.holdUnwritten]
theorem State.f_holdUnwritten (s : State) (r : RegField) (h : r.addr ≠ Reg.xltFqOvf) : s.holdUnwritten.f r = s.f r := by
  rw [State.holdUnwritten, State.f_irqSync, State.satF, State.f_setF_other _ _ _ _ h]; rfl

/-- The state in which a record stands in the ring at `a` as number `id` and is counted, and its fault awaits a resolution. -/
def State.recordInRing (s : State) (a id : Nat) (f : XFault) (rest : List XFault) : State :=
  let s' := (s.storeHost (s.hostAddr a) (faultRecord f id s.now)).setF Reg.xltFqProdProd (id + 1)
  { s' with xlt := { s'.xlt with faults := { f with id := some id } :: rest } }

/-- The state once the host die has been told of it. -/
def State.recordWritten (s : State) (a id : Nat) (f : XFault) (rest : List XFault) : State :=
  let s' := s.recordInRing a id f rest
  (s'.latched (s'.fb Reg.xltCtrlFqIe) 1).irqSync

section
variable (s : State) (a id : Nat) (f : XFault) (rest : List XFault)

theorem State.recordWritten_mem : (s.recordWritten a id f rest).mem = s.mem := by
  rw [State.recordWritten, State.irqSync_mem, State.latched_mem]; rfl
theorem State.recordWritten_hostMem :
    (s.recordWritten a id f rest).hostMem = (s.storeHost (s.hostAddr a) (faultRecord f id s.now)).hostMem := by
  rw [State.recordWritten, State.irqSync_hostMem, State.latched_hostMem, State.recordInRing, State.setF_hostMem]
theorem State.recordWritten_faults : (s.recordWritten a id f rest).xlt.faults = { f with id := some id } :: rest := by
  rw [State.recordWritten, State.irqSync_xlt, State.latched_xlt]; rfl
theorem State.recordWritten_prod : Holds (s.recordWritten a id f rest) Reg.xltFqProdProd (id + 1) := by
  have counted : (s.recordInRing a id f rest).f Reg.xltFqProdProd =
      ((s.storeHost (s.hostAddr a) (faultRecord f id s.now)).setF Reg.xltFqProdProd (id + 1)).f Reg.xltFqProdProd := by
    simp only [State.recordInRing, State.f, State.rd]
  have other : Reg.xltFqProdProd.addr ≠ Reg.hstIrqPend := by decide
  rw [State.recordWritten, Holds, State.f_irqSync, State.f_latched _ _ _ _ other, counted,
    State.f_setF_same _ _ _ (by decide) (by decide)]

end

/-- The state in which the host die has answered a record's write with an error. -/
def State.recordRefused (s : State) : State :=
  (((s.setF Reg.hstStatHosterr 1).setF Reg.xltCtrlFqEn 0).setF Reg.xltStatFqErr 1).holdUnwritten

section
variable {s : State} {f : XFault} {rest : List XFault} (hf : s.xlt.faults = f :: rest) (hid : f.id = none)
  (ht : f.inTable = true) (hfull : s.fqFull = false)
  (hin : inWindow (s.f Reg.xltFqBaseAddr * 64 + s.f Reg.xltFqProdProd % 4096 * 64) 64 = true)
include hf hid ht hfull hin

theorem exec_faultRecordWrite_ok (hhole : f.kind ≠ .physHole) (hpre : f.kind ≠ .prefetch) :
    let a := s.f Reg.xltFqBaseAddr * 64 + s.f Reg.xltFqProdProd % 4096 * 64
    exec (.faultRecordWrite .ok) s = .next (s.recordWritten a (s.f Reg.xltFqProdProd) f rest) := by
  have entry : ({ f with id := some (s.f Reg.xltFqProdProd), inTable := true } : XFault) =
      { f with id := some (s.f Reg.xltFqProdProd) } := by rw [← ht]
  change execFaultRecordWrite .ok s = _
  simp only [execFaultRecordWrite, State.nextRecord_of_head hf hid ht, hfull, s.keepWrite_record_ok _ _ _ _ hin,
    State.setF_xlt, State.storeHost_xlt, hf, updFirst, decide_true, hhole, hpre, decide_false, Bool.or_false, if_true,
    Bool.false_eq_true, if_false, entry]
  rfl

theorem exec_faultRecordWrite_hostErr : exec (.faultRecordWrite .hostErr) s = .next s.recordRefused := by
  change execFaultRecordWrite .hostErr s = _
  simp [execFaultRecordWrite, State.nextRecord_of_head hf hid ht, hfull, State.recordRefused,
    s.keepWrite_record_hostErr _ _ _ _ hin]

end

theorem State.recordRefused_holds (s : State) : Holds s.recordRefused Reg.xltCtrlFqEn 0 ∧ Holds s.recordRefused Reg.xltStatFqErr 1 ∧
    Holds s.recordRefused Reg.xltFqProdProd (s.f Reg.xltFqProdProd) := by
  have disjoint : Reg.xltCtrl ≠ Reg.xltFqOvf ∧ Reg.xltStat ≠ Reg.xltFqOvf ∧ Reg.xltFqProd ≠ Reg.xltFqOvf := by decide
  obtain ⟨ctrl, stat, prod⟩ := disjoint
  unfold State.recordRefused
  refine ⟨?_, ?_, ?_⟩
  · rw [Holds, State.f_holdUnwritten _ _ ctrl, State.f_setF_other _ _ _ _ (by decide)]
    exact holds_setF_same _ _ _ (by decide) (by decide)
  · rw [Holds, State.f_holdUnwritten _ _ stat]
    exact holds_setF_same _ _ _ (by decide) (by decide)
  · rw [Holds, State.f_holdUnwritten _ _ prod, State.f_setF_other _ _ _ _ (by decide), State.f_setF_other _ _ _ _ (by decide),
      State.f_setF_other _ _ _ _ (by decide)]
    exact (Nat.mod_eq_of_lt (fld_lt ..)).symm

/-! The members of an entry, one after the other. -/

/-- What the round of an element brings about while `I` holds, and every later round keeps, holds at the end of a repetition
that keeps `I`. -/
theorem overList_establishes {α σ : Type} (I P : σ → Prop) (f : α → σ → σ) (hI : ∀ b s, I s → I (f b s))
    (hP : ∀ b s, P s → P (f b s)) {l : List α} {a : α} (ha : a ∈ l) (hrun : ∀ s, I s → P (f a s)) (s : σ) (hs : I s) :
    P (overList l f s) := by
  induction l generalizing s with
  | nil => cases ha
  | cons b l ih =>
    rcases List.mem_cons.mp ha with rfl | hl
    · exact overList_induction P l f _ (hrun s hs) hP
    · exact ih hl _ (hI b s hs)

/-- What a resolution does for one member: RETRY lets it walk again, ABORT ends its step (R393). -/
def Member.resume (m : Member) (s : State) : State := s.resumeWho m.tower m.who
def Member.abort (m : Member) (s : State) : State := if m.tower < 128 then s.programError m.tower else s

/-- The member waits on a fault: a requester of a Tower, or a Keep core. -/
def State.memberWaits (s : State) (m : Member) : Prop :=
  (m.tower < 128 ∧ waitsOnFault (s.tw m.tower) m.who) ∨ (m.tower = 128 ∧ m.who = 0 ∧ s.keep0.wait = .translation) ∨
    (m.tower = 129 ∧ m.who = 0 ∧ s.keep1.wait = .translation)

section
variable {id : Nat} {s : State} {f : XFault} (h : s.entryOf id = some f)
include h

theorem State.resolveRetry_of_entry : s.resolveRetry id = (overList f.members Member.resume s).freeEntry id := by
  simp only [State.resolveRetry, h]; rfl
theorem State.resolveAbort_of_entry : s.resolveAbort id = (overList f.members Member.abort s).freeEntry id := by
  simp only [State.resolveAbort, h]; rfl

end

theorem State.entryOf_eq_none (s : State) (id : Nat) (h : ∀ f ∈ s.xlt.faults, ¬ (f.inTable = true ∧ f.id = some id)) :
    s.entryOf id = none := by
  rw [State.entryOf, List.find?_eq_none]
  simpa using h

/-- The entries that stay when a record's entry is freed. -/
theorem State.freeEntry_faults (s : State) (id : Nat) : (s.freeEntry id).xlt.faults =
    s.xlt.faults.filter (fun f => !(f.inTable && decide (f.id = some id))) := by simp [State.freeEntry]
@[simp] theorem State.freeEntry_mem (s : State) (id : Nat) : (s.freeEntry id).mem = s.mem := by simp [State.freeEntry]
@[simp] theorem State.freeEntry_steps (s : State) (id : Nat) : (s.freeEntry id).steps = s.steps := by simp [State.freeEntry]
@[simp] theorem State.freeEntry_keep0 (s : State) (id : Nat) : (s.freeEntry id).keep0 = s.keep0 := by simp [State.freeEntry]
@[simp] theorem State.freeEntry_keep1 (s : State) (id : Nat) : (s.freeEntry id).keep1 = s.keep1 := by simp [State.freeEntry]
@[simp] theorem State.tw_freeEntry (s : State) (id t : Nat) : (s.freeEntry id).tw t = s.tw t := by
  simp only [State.freeEntry, State.tw_irqSync]; rfl

/-! RETRY. -/

theorem Member.resume_frame (m : Member) (s : State) :
    (m.resume s).xlt = s.xlt ∧ (m.resume s).mem = s.mem ∧ (m.resume s).steps = s.steps := by
  unfold Member.resume State.resumeWho
  split
  · split <;> [exact ⟨rfl, rfl, rfl⟩; (split <;> exact ⟨rfl, rfl, rfl⟩)]
  · split <;> exact ⟨rfl, rfl, rfl⟩
  · exact ⟨rfl, rfl, rfl⟩
  · split <;> exact ⟨rfl, rfl, rfl⟩
  · exact ⟨rfl, rfl, rfl⟩

theorem resumeAll_frame (ms : List Member) (s : State) : (overList ms Member.resume s).xlt = s.xlt ∧
    (overList ms Member.resume s).mem = s.mem ∧ (overList ms Member.resume s).steps = s.steps := by
  refine overList_induction (fun t => t.xlt = s.xlt ∧ t.mem = s.mem ∧ t.steps = s.steps) ms _ s ⟨rfl, rfl, rfl⟩ ?_
  rintro m t ⟨hx, hm, hs⟩
  obtain ⟨hx', hm', hs'⟩ := m.resume_frame t
  exact ⟨hx'.trans hx, hm'.trans hm, hs'.trans hs⟩

/-- A core, an engine and a stream slot that waited on a fault go on, and others stay as they are. -/
def Core.resumed (k : Core) : Core := if k.wait = .translation then { k with wait := .none } else k
def Stop.resumed (x : Stop) : Stop := if x = .xlat then .running else x
def Slot.resumed (x : Slot) : Slot := { x with stopped := if x.stopped = 2 then 0 else x.stopped, aheadStop := false }

theorem Core.wait_resumed (k : Core) : k.resumed.wait ≠ .translation := by
  unfold Core.resumed; split <;> simp_all
theorem Stop.resumed_ne_xlat (x : Stop) : x.resumed ≠ .xlat := by cases x <;> decide
theorem Slot.stopped_resumed (x : Slot) : x.resumed.stopped ≠ 2 := by
  simp only [Slot.resumed]; split <;> simp_all

/-- A Tower whose requester numbered `who` walks again. -/
def Tower.resumed (w : Tower) : Nat → Tower
  | 0 => { w with core := w.core.resumed }
  | 1 => { w with sVec := w.sVec.resumed }
  | 2 => { w with sDom := w.sDom.resumed }
  | 3 => { w with sTile := w.sTile.resumed }
  | k => { w with slots := Tab.set w.slots (k - 4) (Tab.get {} w.slots (k - 4)).resumed }

theorem Tower.resumed_rests (w : Tower) (who : Nat) : ¬ waitsOnFault (w.resumed who) who := by
  match who with
  | 0 => exact w.core.wait_resumed
  | 1 => exact w.sVec.resumed_ne_xlat
  | 2 => exact w.sDom.resumed_ne_xlat
  | 3 => exact w.sTile.resumed_ne_xlat
  | k + 4 => simpa [waitsOnFault, Tower.resumed] using Slot.stopped_resumed _

/-- Another requester of the Tower goes on as it did. -/
theorem Tower.resumed_of_ne (w : Tower) (who other : Nat) (h : who ≠ other) :
    waitsOnFault (w.resumed other) who ↔ waitsOnFault w who := by
  match other, who with
  | 0, 0 | 1, 1 | 2, 2 | 3, 3 => exact absurd rfl h
  | 0, 1 | 0, 2 | 0, 3 | 0, _ + 4 | 1, 0 | 1, 2 | 1, 3 | 1, _ + 4 => rfl
  | 2, 0 | 2, 1 | 2, 3 | 2, _ + 4 | 3, 0 | 3, 1 | 3, 2 | 3, _ + 4 => rfl
  | _ + 4, 0 | _ + 4, 1 | _ + 4, 2 | _ + 4, 3 => rfl
  | j + 4, k + 4 =>
    have : k ≠ j := fun e => h (by rw [e])
    simp [waitsOnFault, Tower.resumed, Tab.get_set, this]

/-- The Towers when a requester goes on: its own resumes it, and every other is as it was; a core numbered 128 or more is a
Keep's. -/
theorem State.tw_resumeWho (s : State) (t who n : Nat) :
    (s.resumeWho t who).tw n = if n = t ∧ (who ≠ 0 ∨ t < 128) then (s.tw n).resumed who else s.tw n := by
  by_cases hn : n = t
  · subst hn
    match who with
    | 0 =>
      by_cases ht : n < 128
      · simp [State.resumeWho, ht, Tower.resumed, Core.resumed]
      · simp only [State.resumeWho, ht, if_false, ne_eq, not_true_eq_false, or_self, and_false]
        split <;> rfl
    | 1 =>
      by_cases hx : (s.tw n).sVec = .xlat <;> simp [State.resumeWho, hx, Tower.resumed, Stop.resumed]
    | 2 => simp [State.resumeWho, Tower.resumed, Stop.resumed]
    | 3 =>
      by_cases hx : (s.tw n).sTile = .xlat <;> simp [State.resumeWho, hx, Tower.resumed, Stop.resumed]
    | k + 4 => simp [State.resumeWho, Tower.resumed, Slot.resumed]
  · rw [if_neg (fun h => hn h.1)]
    unfold State.resumeWho
    split
    · split <;> [simp [State.tw_modTw, hn]; (split <;> rfl)]
    · split <;> simp [State.tw_modTw, hn]
    · simp [State.tw_modTw, hn]
    · split <;> simp [State.tw_modTw, hn]
    · simp [State.tw_modTw, hn]

/-- The Keep cores when a requester goes on. -/
theorem State.keeps_resumeWho (s : State) (t who : Nat) :
    (s.resumeWho t who).keep0 = (if who = 0 ∧ t = 128 then s.keep0.resumed else s.keep0) ∧
      (s.resumeWho t who).keep1 = if who = 0 ∧ 128 < t then s.keep1.resumed else s.keep1 := by
  match who with
  | 0 =>
    simp only [State.resumeWho, true_and]
    rcases lt_trichotomy t 128 with ht | rfl | ht
    · simp [ht, ht.ne, ht.le]
    · exact ⟨rfl, rfl⟩
    · simp only [ht.not_gt, ht.ne', ht, if_false, if_true, true_and]; rfl
  | 1 | 3 => simp only [State.resumeWho]; split <;> simp
  | 2 | k + 4 => simp [State.resumeWho]

/-- A member that walks again waits no more. -/
theorem Member.resume_rests (m : Member) (s : State) : ¬ (m.resume s).memberWaits m := by
  obtain ⟨k0, k1⟩ := s.keeps_resumeWho m.tower m.who
  rintro (⟨ht, hw⟩ | ⟨ht, hm, hw⟩ | ⟨ht, hm, hw⟩)
  · rw [Member.resume, State.tw_resumeWho, if_pos ⟨rfl, .inr ht⟩] at hw
    exact Tower.resumed_rests _ _ hw
  · rw [Member.resume, k0, if_pos ⟨hm, ht⟩] at hw
    exact Core.wait_resumed _ hw
  · rw [Member.resume, k1, if_pos ⟨hm, by omega⟩] at hw
    exact Core.wait_resumed _ hw

/-- No member begins to wait when another walks again. -/
theorem Member.memberWaits_of_resume (b m : Member) (s : State) (h : (b.resume s).memberWaits m) : s.memberWaits m := by
  obtain ⟨k0, k1⟩ := s.keeps_resumeWho b.tower b.who
  have core (k : Core) (p : Prop) [Decidable p] (hw : (if p then k.resumed else k).wait = .translation) :
      k.wait = .translation := by
    split at hw
    · exact absurd hw k.wait_resumed
    · exact hw
  rcases h with ⟨ht, hw⟩ | ⟨ht, hm, hw⟩ | ⟨ht, hm, hw⟩
  · refine .inl ⟨ht, ?_⟩
    rw [Member.resume, State.tw_resumeWho] at hw
    split at hw
    · by_cases hq : m.who = b.who
      · exact absurd (hq ▸ hw) (Tower.resumed_rests _ _)
      · exact (Tower.resumed_of_ne _ _ _ hq).mp hw
    · exact hw
  · exact .inr (.inl ⟨ht, hm, core _ _ (k0 ▸ hw)⟩)
  · exact .inr (.inr ⟨ht, hm, core _ _ (k1 ▸ hw)⟩)

/-- After a RETRY no member of the entry waits. -/
theorem resumeAll_rests {ms : List Member} {m : Member} (hm : m ∈ ms) (s : State) :
    ¬ (overList ms Member.resume s).memberWaits m :=
  overList_establishes (fun _ => True) (fun t => ¬ t.memberWaits m) Member.resume (fun _ _ _ => trivial)
    (fun b t ht hw => ht (b.memberWaits_of_resume m t hw)) hm (fun t _ => m.resume_rests t) s trivial

/-! ABORT. -/

@[simp] theorem State.stopTowers_xlt (s : State) (ts : List Nat) : (s.stopTowers ts).xlt = s.xlt :=
  overList_induction (fun t => t.xlt = s.xlt) ts _ s rfl (fun _ _ h => by simpa using h)
@[simp] theorem State.programError_xlt (s : State) (t : Nat) : (s.programError t).xlt = s.xlt := by
  simp only [State.programError]; split <;> simp

/-- A Tower that holds an accepted step names it. -/
theorem State.step_of_stepOf (s : State) (u k : Nat) (st : StepSt) (h : s.stepOf u = some (k, st)) :
    (s.tw u).step = some k := by
  unfold State.stepOf at h
  split at h
  next hk =>
    obtain ⟨x, -, e⟩ := Option.map_eq_some_iff.mp h
    cases e; exact hk
  next => cases h

/-- Towers that stop keep the step they hold. -/
theorem State.step_stopTowers (s : State) (ts : List Nat) (v : Nat) : ((s.stopTowers ts).tw v).step = (s.tw v).step := by
  refine overList_induction (fun t => (t.tw v).step = (s.tw v).step) ts _ s rfl (fun a t h => ?_)
  rw [State.tw_modTw]
  split
  next hv => subst hv; rw [← h]; split <;> rfl
  next => exact h

/-- The Towers that a program error stops: those of the step, or the Tower alone where it holds none. -/
theorem State.tw_programError (s : State) (u : Nat) : ∃ ts, ∀ v, (s.programError u).tw v = (s.stopTowers ts).tw v := by
  unfold State.programError
  split
  next k st _ => exact ⟨st.towers, fun _ => rfl⟩
  next => exact ⟨[u], fun _ => rfl⟩

theorem State.step_programError (s : State) (u v : Nat) : ((s.programError u).tw v).step = (s.tw v).step := by
  obtain ⟨ts, h⟩ := s.tw_programError u
  rw [h, State.step_stopTowers]

/-- A program error starts no Tower. -/
theorem State.run_programError (s : State) (u v : Nat) (h : (s.tw v).run ≠ .running) :
    ((s.programError u).tw v).run ≠ .running := by
  obtain ⟨ts, htw⟩ := s.tw_programError u
  rw [htw, State.run_stopTowers]
  split
  · exact Run.halted_ne_running _
  · exact h

/-- The step `k` is accepted as `st`, or marked as a program error since. -/
def State.holdsStep (s : State) (k : Nat) (st : StepSt) : Prop :=
  Tab.find s.steps k = some st ∨ Tab.find s.steps k = some { st with progErr := true }

/-- The step `k`, accepted as `st`, has ended as a program error. -/
def State.endedStep (s : State) (k : Nat) (st : StepSt) : Prop :=
  Tab.find s.steps k = some { st with progErr := true } ∧ ∀ v ∈ st.towers, (s.tw v).run ≠ .running

/-- A program error leaves a step as it is or marks it. -/
theorem State.find_programError (s : State) (u k : Nat) (st : StepSt) (h : Tab.find s.steps k = some st) :
    (s.programError u).holdsStep k st := by
  cases hu : s.stepOf u with
  | none => simp [State.holdsStep, State.programError, hu, h]
  | some x =>
    rw [State.holdsStep, s.programError_steps u x.1 x.2 hu]
    split
    next hk =>
      subst hk
      have same := (s.find_stepOf u x.1 x.2 hu).symm.trans h
      rw [Option.some.inj same]
      exact .inr rfl
    next => exact .inl h

theorem State.holdsStep_programError {s : State} {k : Nat} {st : StepSt} (u : Nat) (h : s.holdsStep k st) :
    (s.programError u).holdsStep k st := by
  rcases h with h | h
  · exact s.find_programError u k st h
  · exact .inr ((s.find_programError u k _ h).elim id id)

theorem State.endedStep_programError {s : State} {k : Nat} {st : StepSt} (u : Nat) (h : s.endedStep k st) :
    (s.programError u).endedStep k st := by
  obtain ⟨hfind, hrun⟩ := h
  exact ⟨(s.find_programError u k _ hfind).elim id id, fun v hv => s.run_programError u v (hrun v hv)⟩

/-- The program error of a Tower that holds the step ends it. -/
theorem State.endedStep_of_programError {s : State} {u k : Nat} {st : StepSt} (hstep : (s.tw u).step = some k)
    (h : s.holdsStep k st) : (s.programError u).endedStep k st := by
  have ends (st' : StepSt) (hf : Tab.find s.steps k = some st') : (s.programError u).endedStep k st' := by
    have held : s.stepOf u = some (k, st') := by simp [State.stepOf, hstep, hf]
    refine ⟨by simp [s.programError_steps u k st' held], fun v hv => ?_⟩
    have stops : (s.programError u).tw v = (s.stopTowers st'.towers).tw v := by simp only [State.programError, held]; rfl
    rw [stops, State.run_stopTowers, if_pos hv]
    exact Run.halted_ne_running _
  rcases h with h | h
  · exact ends st h
  · exact ends { st with progErr := true } h

theorem Member.abort_eq (m : Member) (s : State) : m.abort s = s ∨ m.abort s = s.programError m.tower := by
  unfold Member.abort; split <;> simp

theorem abortAll_frame (ms : List Member) (s : State) :
    (overList ms Member.abort s).xlt = s.xlt ∧ (overList ms Member.abort s).mem = s.mem := by
  refine overList_induction (fun t => t.xlt = s.xlt ∧ t.mem = s.mem) ms _ s ⟨rfl, rfl⟩ (fun m t h => ?_)
  rcases m.abort_eq t with e | e <;> rw [e] <;> simpa using h

/-- An ABORT ends the step of every member that is a Tower's. -/
theorem abortAll_endsStep {ms : List Member} {m : Member} (hm : m ∈ ms) (ht : m.tower < 128) (s : State) :
    EndsStep m.tower s (overList ms Member.abort s) := by
  intro k st hst
  have held : (s.tw m.tower).step = some k ∧ s.holdsStep k st :=
    ⟨s.step_of_stepOf _ _ _ hst, .inl (s.find_stepOf _ _ _ hst)⟩
  have ended : (overList ms Member.abort s).endedStep k st := by
    refine overList_establishes (fun t => (t.tw m.tower).step = some k ∧ t.holdsStep k st) (·.endedStep k st) Member.abort
      (fun b t h => ?_) (fun b t h => ?_) hm (fun t h => ?_) s held
    · rcases b.abort_eq t with e | e <;> rw [e]
      · exact h
      · exact ⟨(t.step_programError _ _).trans h.1, State.holdsStep_programError _ h.2⟩
    · rcases b.abort_eq t with e | e <;> rw [e]
      · exact h
      · exact State.endedStep_programError _ h
    · rw [Member.abort, if_pos ht]
      exact State.endedStep_of_programError h.1 h.2
  obtain ⟨hfind, hrun⟩ := ended
  exact ⟨⟨_, hfind, rfl⟩, hrun⟩

/-! Prefetch requests (R396, R405). -/

/-- The record that a write to `XLT_PFREQ` leaves. -/
def State.prefetchRecord (s : State) (t : Nat) (v : Dword) : XFault where
  id := none
  inTable := false
  held := false
  kind := .prefetch
  asid := s.asidOf t
  handle := s.handleOf t
  region := fld v 47 16 * 65536
  addr := 0
  level := 0
  adv := 0
  access := if bit v 0 then 2 else 1
  towers := 2 ^ t
  engines := 1
  part := false
  count := fld v 63 48
  members := []

/-- The queue has room for one more record behind those that wait where it is on and not all its entries are taken. -/
theorem State.fqNoRoom_eq_false (s : State) :
    s.fqNoRoom = false ↔ s.fb Reg.xltCtrlFqEn = true ∧ s.fqUsed + s.unwritten.length < 4096 := by
  simp [State.fqNoRoom]

section
variable (s : State) (t : Nat) (v : Dword) (hstep : (s.tw t).step.isSome = true)
include hstep

theorem State.wrPfreq_of_room (h : s.fb Reg.xltCtrlFqEn = true ∧ s.fqUsed + s.unwritten.length < 4096) :
    s.wrPfreq t v = { s with xlt := { s.xlt with faults := s.xlt.faults ++ [s.prefetchRecord t v] } } := by
  rw [State.wrPfreq, Option.isNone_eq_false_iff.mpr hstep, s.fqNoRoom_eq_false.mpr h]; rfl

theorem State.wrPfreq_of_noRoom (h : ¬ (s.fb Reg.xltCtrlFqEn = true ∧ s.fqUsed + s.unwritten.length < 4096)) :
    s.wrPfreq t v = s.satF (Reg.xltPfDropCount t) 1 := by
  have full : s.fqNoRoom = true := by rwa [← s.fqNoRoom_eq_false, Bool.not_eq_false] at h
  rw [State.wrPfreq, Option.isNone_eq_false_iff.mpr hstep, full]; rfl

end

end Sys2Proof.Machine
end

section

namespace Sys2Proof.Proofs
open Sys2Proof.Machine Sys2Proof.Says

/-- Settles O34: the fault queue by its operations, the members of an entry one after the other for RETRY and ABORT (R389, R393),
and a prefetch request as its Tower's step makes it (R396, R405). -/
theorem faultQueue : Obligations.FaultQueue := by
  unfold Obligations.FaultQueue
  refine ⟨fun v s hoff => ?enable, fun f rest s hf hid ht hhole hpre hfull hin _ => ⟨?written, ?refused⟩,
    fun id f s hf => ⟨?retry, ?abort⟩, fun id s hstale => ?stale, fun u v s hstep => ⟨fun hroom => ?prefetch, fun hfull => ?drop⟩⟩
  case enable =>
    have he : exec (.xltCtrl v) s = .next (s.fqEnabled v).irqSync := congrArg Host.Outcome.next (s.wrXltCtrl_of_off v hoff)
    have sync (r : RegField) (n : Nat) (h : Holds (s.fqEnabled v) r n) : Holds (s.fqEnabled v).irqSync r n := by
      rwa [Holds, State.f_irqSync]
    refine ⟨_, he, ?_, ?_, sync _ _ (s.fqEnabled_ie v 0 (by decide)), sync _ _ (s.fqEnabled_ie v 1 (by decide)),
      sync _ _ (s.fqEnabled_ie v 2 (by decide)), fun h => sync _ _ (s.fqEnabled_of_clear v h), fun h hin => ?_, fun h hout => ?_⟩
    · simp [State.fqEnabled_mem]
    · simp [State.fqEnabled_xlt]
    · obtain ⟨en, prod, cons⟩ := s.fqEnabled_of_inside v h ((inWindow_iff _ _).mpr hin)
      exact ⟨sync _ _ en, sync _ _ prod, sync _ _ cons⟩
    · obtain ⟨en, err⟩ := s.fqEnabled_of_outside v h (Bool.eq_false_iff.mpr (hout ∘ (inWindow_iff _ _).mp))
      exact ⟨sync _ _ en, sync _ _ err⟩
  case written =>
    exact ⟨_, exec_faultRecordWrite_ok hf hid ht hfull hin hhole hpre, s.recordWritten_hostMem .., s.recordWritten_prod ..,
      s.recordWritten_faults .., s.recordWritten_mem ..⟩
  case refused =>
    obtain ⟨en, err, prod⟩ := s.recordRefused_holds
    refine ⟨_, exec_faultRecordWrite_hostErr hf hid ht hfull hin, ?_, en, err, prod, ?_⟩
    · simp [State.recordRefused, State.holdUnwritten_hostMem]
    · simp [State.recordRefused, State.holdUnwritten_faults, hf, hid]
  case retry =>
    obtain ⟨hx, hm, hs⟩ := resumeAll_frame f.members s
    refine ⟨_, congrArg Host.Outcome.next (State.resolveRetry_of_entry hf), ?_, ?_, ?_, fun m hmem => ?_⟩
    · exact (State.freeEntry_faults ..).trans (by rw [hx])
    · rw [State.freeEntry_mem, hm]
    · rw [State.freeEntry_steps, hs]
    · have rests := resumeAll_rests hmem s
      simp only [State.memberWaits, not_or, not_and] at rests
      simpa using rests
  case abort =>
    obtain ⟨hx, hm⟩ := abortAll_frame f.members s
    refine ⟨_, congrArg Host.Outcome.next (State.resolveAbort_of_entry hf), ?_, ?_, fun m hmem ht k st hst => ?_⟩
    · exact (State.freeEntry_faults ..).trans (by rw [hx])
    · rw [State.freeEntry_mem, hm]
    · simpa using abortAll_endsStep hmem ht s k st hst
  case stale =>
    have noEntry := s.entryOf_eq_none _ hstale
    constructor
    · exact congrArg Host.Outcome.next (by simp [State.resolveRetry, noEntry])
    · exact congrArg Host.Outcome.next (by simp [State.resolveAbort, noEntry])
  case prefetch =>
    refine ⟨_, s.prefetchRecord u.toNat v, congrArg Host.Outcome.next (s.wrPfreq_of_room u.toNat v hstep hroom), rfl, rfl, ?_⟩
    exact ⟨rfl, rfl, rfl, rfl, rfl, rfl, rfl, rfl⟩
  case drop =>
    exact ⟨_, congrArg Host.Outcome.next (s.wrPfreq_of_noRoom u.toNat v hstep hfull),
      counts_satF _ _ _ (by decide : 31 < 64) (Nat.zero_le _), rfl⟩

end Sys2Proof.Proofs
end

section
/-! PROOFS. The Keep's reads of memory (R352, R360): one of device memory that answers gives the bytes there and changes nothing,
and whatever a read meets, it leaves memory, steps and channels as they are. -/

namespace Sys2Proof.Machine
open Sys2Proof.Says

/-! Pieces within granules (R353). -/

theorem range_append (lo m n : Nat) : range lo (m + n) = range lo m ++ range (lo + m) n := by
  simp [range, List.range_add, Function.comp_def, Nat.add_assoc]

theorem State.load_append (s : State) (a m n : Nat) : s.load a (m + n) = s.load a m ++ s.load (a + m) n := by
  simp only [State.load, Tab.getAll, range_append, List.map_append]

/-- Every piece of a range is part of it, and holds a byte. -/
theorem mem_pieces {fuel a n : Nat} {p : Nat × Nat} (h : p ∈ pieces fuel a n) : a ≤ p.1 ∧ p.1 + p.2 ≤ a + n ∧ 0 < p.2 := by
  induction fuel generalizing a n with
  | zero => cases h
  | succ fuel ih =>
    by_cases hn : n = 0
    · simp [pieces, hn] at h
    · simp only [pieces, hn, if_false, List.mem_cons] at h
      rcases h with rfl | h
      · dsimp only; omega
      · have := ih h; omega

/-! Device memory that answers. -/

section
variable {s : State} {a n : Nat} (h : Answers s a n)
include h

/-- What answers as a whole, answers in every part. -/
theorem answers_part {b m : Nat} (hb : a ≤ b) (hm : b + m ≤ a + n) : Answers s b m := by
  obtain ⟨size, device, sound⟩ := h
  refine ⟨hm.trans size, hm.trans device, fun y hy => ?_⟩
  have offset : a + (b - a + y) = b + y := by omega
  exact offset ▸ sound (b - a + y) (by omega)

theorem not_inWindow_of_answers (hn : 0 < n) : inWindow a n = false := by
  obtain ⟨-, device, -⟩ := h
  rw [inWindow, decide_eq_false (by omega), Bool.false_and]

theorem readable_of_answers (hn : 0 < n) : s.unreadable a n = false := by
  obtain ⟨-, device, sound⟩ := h
  obtain ⟨lost, silent, bad⟩ := sound 0 hn
  have low : a < 0x100000000000 := by omega
  rw [Nat.add_zero] at lost silent bad
  simp [State.unreadable, State.badIn, low, lost, silent, bad]

theorem keepHole_of_answers (hn : 0 < n) : s.keepHole a = false := by
  obtain ⟨size, device, -⟩ := h
  have place : s.lpaPlace a = .device := by
    rw [State.lpaPlace, if_pos (show a < 0x100000000000 by omega), if_pos (show a < s.f Reg.memSizeSize by omega)]
  rw [State.keepHole, place]

theorem readMem_of_answers (t : Nat) : s.readMem t a n = (s.load a n, false, s) := by
  have readable : (granules a n).filter (fun p => s.unreadable p.1 p.2) = [] := by
    refine List.filter_eq_nil_iff.mpr fun p hp => ?_
    obtain ⟨low, high, filled⟩ := mem_pieces hp
    simp [readable_of_answers (answers_part h low high) filled]
  simp [State.readMem, readable]

theorem load_of_answers : s.load a n = memAt s a n := by
  obtain ⟨-, device, -⟩ := h
  simp only [State.load, Tab.getAll, memAt, range, List.map_map]
  refine List.map_congr_left fun j hj => ?_
  have hj := List.mem_range.mp hj
  exact congrArg (Tab.get 0 s.mem) (Nat.mod_eq_of_lt (show a + j < 2 ^ 45 by omega)).symm

end

/-! Reads of a Keep. -/

/-- One piece of a Keep's read outside the window. -/
def keepReadPiece (acc : Option (List Byte) × State) (p : Nat × Nat) : Option (List Byte) × State :=
  if acc.2.keepHole p.1 then (acc.1.map (· ++ List.replicate p.2 0), acc.2)
  else
    let r := acc.2.readMem 128 p.1 p.2
    (if r.2.1 then none else acc.1.map (· ++ r.1), r.2.2)

theorem State.keepRead_outside (s : State) (a n : Nat) (h : inWindow a n = false) :
    s.keepRead a n = (granules a n).foldl keepReadPiece (some [], s) := by
  rw [State.keepRead, if_neg (by simp [h])]; rfl

/-- The pieces of a range that answers put its bytes together, if there is fuel for all of them. -/
theorem foldl_keepReadPiece_of_answers {s : State} {a n : Nat} (h : Answers s a n) (fuel : Nat) (hf : n ≠ 0 → a % 64 + n ≤ 64 * fuel)
    (bs : List Byte) : (pieces fuel a n).foldl keepReadPiece (some bs, s) = (some (bs ++ s.load a n), s) := by
  induction fuel generalizing a n bs with
  | zero =>
    have : n = 0 := by omega
    subst this
    simp [pieces, State.load, Tab.getAll, range]
  | succ fuel ih =>
    by_cases hn : n = 0
    · subst hn
      simp [pieces, State.load, Tab.getAll, range]
    · obtain ⟨k, hk⟩ : ∃ k, k = min n (64 - a % 64) := ⟨_, rfl⟩
      have first : Answers s a k := answers_part h le_rfl (by omega)
      have rest : Answers s (a + k) (n - k) := answers_part h (by omega) (by omega)
      have split : s.load a n = s.load a k ++ s.load (a + k) (n - k) := by
        rw [← State.load_append]; congr 1; omega
      have piece : keepReadPiece (some bs, s) (a, k) = (some (bs ++ s.load a k), s) := by
        simp [keepReadPiece, keepHole_of_answers first (by omega), readMem_of_answers first]
      rw [pieces, if_neg hn]
      simp only [← hk, List.foldl_cons, piece]
      have fuelled : n - k ≠ 0 → (a + k) % 64 + (n - k) ≤ 64 * fuel := by omega
      rw [ih rest fuelled, split, List.append_assoc]

/-- A Keep's read of device memory that answers gives its bytes and changes nothing, whatever the host die would say. -/
theorem keepReadAns_of_answers {s : State} {a n : Nat} (h : Answers s a n) (hn : 0 < n) (r : Resp) :
    s.keepReadAns a n r = (some (memAt s a n), s) := by
  have outside := not_inWindow_of_answers h hn
  have whole := foldl_keepReadPiece_of_answers h (n / 64 + 2) (by omega) []
  rw [State.keepReadAns, outside, Bool.false_and, if_neg Bool.false_ne_true, s.keepRead_outside a n outside, granules, whole,
    List.nil_append, load_of_answers h]

/-- An error response of the host die gives no bytes and is marked (R352). -/
theorem State.keepReadAns_hostErr (s : State) (a n : Nat) (h : inWindow a n = true) :
    s.keepReadAns a n .hostErr = (none, s.setF Reg.hstStatHosterr 1) := by
  simp [State.keepReadAns, h]

/-! What a read leaves as it is. -/

/-- Memory, steps and channels are the same in both states. -/
def State.SameWork (s t : State) : Prop := t.mem = s.mem ∧ t.steps = s.steps ∧ t.chans = s.chans

theorem State.SameWork.refl (s : State) : s.SameWork s := ⟨rfl, rfl, rfl⟩
theorem State.SameWork.trans {s t u : State} (h : s.SameWork t) (h' : t.SameWork u) : s.SameWork u :=
  ⟨h'.1.trans h.1, h'.2.1.trans h.2.1, h'.2.2.trans h.2.2⟩

theorem State.event_sameWork (s : State) (type part : Nat) (d : List Byte) : s.SameWork (s.event type part d) := by
  unfold State.event; split <;> exact .refl s
theorem State.uncorrected_sameWork (s : State) (struct part addr t : Nat) : s.SameWork (s.uncorrected struct part addr t) :=
  State.event_sameWork ..
theorem State.ueMet_sameWork (s : State) (t a : Nat) : s.SameWork (s.ueMet t a) := by
  have device := s.uncorrected_sameWork 14 (((s.devOf a).map partDevice).getD 0) (a / 64 * 64) t
  unfold State.ueMet
  split
  · dsimp only
    split <;> exact device
  · exact s.uncorrected_sameWork ..

theorem State.readMem_sameWork (s : State) (t a n : Nat) : s.SameWork (s.readMem t a n).2.2 := by
  simp only [State.readMem]
  split
  · exact .refl s
  · exact overList_induction s.SameWork _ (fun (p : Nat × Nat) (x : State) => x.ueMet t p.1) s (.refl s)
      (fun _ x hx => hx.trans (x.ueMet_sameWork ..))

theorem State.landLate_sameWork (s : State) : s.SameWork s.landLate := by
  refine foldl_keeps s.SameWork _ (fun x w hx => ?_) _ _ (.refl s)
  dsimp only
  split <;> exact hx

theorem keepReadPiece_sameWork (acc : Option (List Byte) × State) (p : Nat × Nat) :
    acc.2.SameWork (keepReadPiece acc p).2 := by
  unfold keepReadPiece
  split
  · exact .refl _
  · exact acc.2.readMem_sameWork ..

theorem State.keepRead_sameWork (s : State) (a n : Nat) : s.SameWork (s.keepRead a n).2 := by
  cases h : inWindow a n with
  | true => rw [State.keepRead, if_pos h]; exact s.landLate_sameWork
  | false =>
    rw [s.keepRead_outside a n h]
    exact foldl_keeps (fun x : Option (List Byte) × State => s.SameWork x.2) _
      (fun x p hx => hx.trans (keepReadPiece_sameWork x p)) _ _ (.refl s)

theorem State.keepReadAns_sameWork (s : State) (a n : Nat) (r : Resp) : s.SameWork (s.keepReadAns a n r).2 := by
  unfold State.keepReadAns
  split
  · exact .refl s
  · exact s.keepRead_sameWork a n

end Sys2Proof.Machine
end

section
/-! PROOFS. Doorbells and the acceptance of steps (R456–R462), and `KEEP_CFG` (R476). -/

namespace Sys2Proof.Machine
open Sys2Proof.Says

/-! Channels. -/

theorem State.chan_setChan (s : State) (n m : Nat) (c : Channel) :
    (s.setChan n c).chan m = if m = n then c else s.chan m := Tab.get_set _ _ _ _ _
@[simp] theorem State.chan_setChan_same (s : State) (n : Nat) (c : Channel) : (s.setChan n c).chan n = c := by
  simp [State.chan_setChan]

/-- A channel that becomes FAULTED marks its number in the interrupt register, and steps and other registers stay (R457). -/
theorem State.chanFault_faults (s : State) (n : Nat) :
    ((s.chanFault n).chan n).state = 3 ∧ (s.chanFault n).steps = s.steps ∧
      ∀ r : RegField, r.addr ≠ Reg.keepIrqStat → (s.chanFault n).f r = s.f r := by
  refine ⟨?_, ?_, fun r hr => ?_⟩
  · rw [State.chanFault, State.keepIrqSet, State.irqSync_eq]
    exact congrArg Channel.state (State.chan_setChan_same s n _)
  · simp only [State.chanFault, State.keepIrqSet, State.irqSync_steps]; rfl
  · have other : r.addr ≠ Reg.keepIrqStatFaultIdx.addr := hr
    rw [State.chanFault, State.keepIrqSet, State.f_irqSync, State.f, State.rd_wr, if_neg hr]
    exact State.f_setF_other _ _ _ _ other

/-! The order of the doorbells (R459). -/

section
variable (bells : List (Nat × Nat)) (n cons prod : Nat)

/-- A doorbell keeps those of other channels. -/
theorem mem_doorbellOrder_of_ne {e : Nat × Nat} (he : e ∈ bells) (hn : e.1 ≠ n) : e ∈ doorbellOrder bells n cons prod := by
  have kept : e ∈ bells.map fun x =>
      if x.1 = n ∧ (prod + 65536 - cons) % 65536 < (x.2 + 65536 - cons) % 65536 then (n, prod) else x :=
    List.mem_map.mpr ⟨e, he, if_neg fun h => hn h.1⟩
  unfold doorbellOrder
  dsimp only
  split
  · exact kept
  · exact List.mem_append_left _ kept

/-- After a doorbell one of the channel covers all that it gives. -/
theorem exists_mem_doorbellOrder :
    ∃ e ∈ doorbellOrder bells n cons prod, e.1 = n ∧ (prod + 65536 - cons) % 65536 ≤ (e.2 + 65536 - cons) % 65536 := by
  unfold doorbellOrder
  dsimp only
  split
  next covered =>
    obtain ⟨e, he, hcov⟩ := List.any_eq_true.mp covered
    exact ⟨e, he, by simpa using hcov⟩
  next => exact ⟨(n, prod), by simp, rfl, le_rfl⟩

end

/-- Only a doorbell at its channel's consumer value goes. -/
theorem State.mem_servedBells (s : State) (n : Nat) (e : Nat × Nat) :
    e ∈ (s.servedBells n).adm.bells ↔ e ∈ s.adm.bells ∧ e ≠ (n, (s.chan n).sqCons) := by
  simp [State.servedBells]

/-- The turn is that of the oldest doorbell, where the gate of its channel is open and it covers an unread descriptor. -/
theorem State.nextToConsume_of_head {s : State} {m p : Nat} {rest : List (Nat × Nat)} (hb : s.adm.bells = (m, p) :: rest)
    (hg : s.gateOpen m = true) (hp : (s.chan m).sqCons ≠ p) : s.nextToConsume = some m := by
  simp [State.nextToConsume, hb, hg, hp]

/-- The channel whose turn it is has its gate open. -/
theorem State.gateOpen_of_next {s : State} {n : Nat} (h : s.nextToConsume = some n) : s.gateOpen n = true := by
  obtain ⟨e, found, rfl⟩ := Option.map_eq_some_iff.mp h
  have := List.find?_some found
  simp only [Bool.and_eq_true] at this
  exact this.1

/-! A doorbell (R456, R458). -/

/-- An abort has acted on the channel (R456). -/
def Channel.aborted (c : Channel) : Prop := c.state = 2 ∨ (c.state = 3 ∧ c.abortPend = true)

/-- The doorbells that the Keep discards (R458). -/
def Channel.refuses (c : Channel) (v : Dword) : Prop :=
  c.live = false ∨ fld v 63 48 ≠ c.gen ∨ (¬ c.aborted ∧ 2 ^ c.sqLog < (fld v 15 0 + 65536 - c.sqCons) % 65536) ∨
    (c.posted + 65536 - c.cqCons) % 65536 < (fld v 31 16 + 65536 - c.cqCons) % 65536

/-! The same as the Keep decides them. -/

theorem Channel.aborted_iff (c : Channel) :
    c.aborted ↔ (decide (c.state = 2) || decide (c.state = 3) && c.abortPend) = true := by
  simp [Channel.aborted]
theorem Channel.refuses_iff (c : Channel) (v : Dword) :
    c.refuses v ↔ (!c.live || decide (fld v 63 48 ≠ c.gen)
      || (!(decide (c.state = 2) || decide (c.state = 3) && c.abortPend)
        && decide (2 ^ c.sqLog < (fld v 15 0 + 65536 - c.sqCons) % 65536))
      || decide ((c.posted + 65536 - c.cqCons) % 65536 < (fld v 31 16 + 65536 - c.cqCons) % 65536)) = true := by
  simp only [Channel.refuses, Channel.aborted, Bool.or_eq_true, Bool.and_eq_true, Bool.not_eq_true', ← Bool.not_eq_true,
    decide_eq_true_eq, or_assoc]

/-- Both pointers of a channel as a doorbell moves them. -/
def Channel.rung (c : Channel) (v : Dword) : Channel := { c with cqCons := fld v 31 16, sqProd := fld v 15 0 }

/-- The state in which both pointers of a channel have moved and its doorbell has its place in the order. -/
def State.rung (s : State) (n : Nat) (v : Dword) : State :=
  let s' := s.setChan n ((s.chan n).rung v)
  { s' with adm := { s'.adm with bells := doorbellOrder s.adm.bells n (s.chan n).sqCons (fld v 15 0) } }.servedBells n

section
variable {s : State} {n : Nat} {v : Dword}

theorem State.doorbellWrite_of_refused (h : (s.chan n).refuses v) : s.doorbellWrite n v = s.satF Reg.keepDbRejCount 1 :=
  if_pos (((s.chan n).refuses_iff v).mp h)

theorem State.doorbellWrite_of_aborted (h : ¬ (s.chan n).refuses v) (ha : (s.chan n).aborted) :
    s.doorbellWrite n v = s.setChan n { s.chan n with cqCons := fld v 31 16 } :=
  (if_neg (h ∘ ((s.chan n).refuses_iff v).mpr)).trans (if_pos ((s.chan n).aborted_iff.mp ha))

theorem State.doorbellWrite_of_open (h : ¬ (s.chan n).refuses v) (ha : ¬ (s.chan n).aborted) :
    s.doorbellWrite n v = s.rung n v :=
  (if_neg (h ∘ ((s.chan n).refuses_iff v).mpr)).trans (if_neg (ha ∘ (s.chan n).aborted_iff.mpr))

end

section
variable (s : State) (n : Nat) (v : Dword)

theorem State.chan_rung (m : Nat) : (s.rung n v).chan m = if m = n then (s.chan n).rung v else s.chan m := s.chan_setChan ..

theorem State.mem_rung (e : Nat × Nat) : e ∈ (s.rung n v).adm.bells ↔
    e ∈ doorbellOrder s.adm.bells n (s.chan n).sqCons (fld v 15 0) ∧ e ≠ (n, (s.chan n).sqCons) := by
  have cons : ((s.setChan n ((s.chan n).rung v)).chan n).sqCons = (s.chan n).sqCons := by
    rw [State.chan_setChan_same]; rfl
  rw [State.rung, State.mem_servedBells]
  exact and_congr_right fun _ => by rw [← cons]; rfl

/-- A doorbell that gives descriptors waits its turn: none that covers them is served yet. -/
theorem State.exists_mem_rung (hc : (s.chan n).sqCons < 65536) (hne : fld v 15 0 ≠ (s.chan n).sqCons) :
    ∃ e ∈ (s.rung n v).adm.bells, e.1 = n := by
  obtain ⟨e, he, hn, covers⟩ := exists_mem_doorbellOrder s.adm.bells n (s.chan n).sqCons (fld v 15 0)
  have given : fld v 15 0 < 65536 := fld_lt v 15 0
  refine ⟨e, (s.mem_rung n v e).mpr ⟨he, fun served => ?_⟩, hn⟩
  rw [served] at covers
  dsimp only at covers
  omega

end

/-! The Keep takes a descriptor (R459, R461, R462). -/

/-- The channel is past the descriptor, and a doorbell that it was the last of is served. -/
def State.pastDesc (s : State) (n : Nat) : State :=
  (s.modChan n (fun c => { c with sqCons := ((s.chan n).sqCons + 1) % 65536 })).servedBells n

theorem State.chan_pastDesc (s : State) (n : Nat) :
    (s.pastDesc n).chan n = { s.chan n with sqCons := ((s.chan n).sqCons + 1) % 65536 } := s.chan_setChan_same n _

/-- The checks of the descriptor itself speak of neither channels nor doorbells. -/
theorem State.descMalformed_pastDesc (s : State) (n : Nat) (d : List Byte) :
    (s.pastDesc n).descMalformed d = s.descMalformed d := rfl

/-- Where a channel's next descriptor stands in its ring, and where its step in the table of steps. -/
def Channel.descAddr (c : Channel) : Nat := c.sqBase + 128 * (c.sqCons % 2 ^ c.sqLog)
def State.nextKey (s : State) (n : Nat) : Nat := n * 65536 + (s.chan n).sqCons

/-- Entries of the region list that a descriptor names. -/
def regionCount (d : List Byte) : Nat := leAt d 0x58 2 + leAt d 0x5A 2

/-- The Keep's read of the region list, if there is one. -/
def State.listRead (s : State) (d : List Byte) (r : Resp) : Option (List Byte) × State :=
  if regionCount d = 0 then (some [], s) else s.keepReadAns (leAt d 0x50 8) (16 * regionCount d) r

/-- A step as it is accepted, with its descriptor, its regions and the status of the first check that failed. -/
def acceptedStep (d : List Byte) (rs : List (Nat × Nat)) (fail due : Nat) : StepSt :=
  { desc := d, regions := rs, fail := fail, due := due }

/-- The status of the first check that fails of those that follow the read of the region list (R462), or 0. -/
def State.firstFail (s : State) (c : Channel) (st : StepSt) : Nat :=
  if regionsBad st.regions then 0x102
  else if rowTwo st (if c.saveBase = 0 then none else some c.saveTowers) then 0x103
  else if s.rowThree st then 0x10A
  else if rowFour st then 0x109
  else 0

/-- The acceptance of a step once its region list has been read, or has met an error response (R462). -/
def acceptListed (key due : Nat) (c : Channel) (d : List Byte) (x : Option (List Byte) × State) : State :=
  match x.1 with
  | none => x.2.setStep key (acceptedStep d [] 0x201 due)
  | some bs =>
    let rs := regionList bs (regionCount d)
    x.2.setStep key (acceptedStep d rs (x.2.firstFail c (acceptedStep d rs 0 due)) due)

section
variable {s : State} {n : Nat} {d : List Byte} {r : DescAns}

theorem State.consume_of_noDesc {w : State} (hg : s.gateOpen n = true)
    (hd : s.keepReadAns (s.chan n).descAddr 128 r.desc = (none, w)) : s.consume n r = w.chanFault n := by
  rw [Channel.descAddr] at hd
  simp [State.consume, hg, hd]

theorem State.consume_of_desc (hg : s.gateOpen n = true)
    (hd : s.keepReadAns (s.chan n).descAddr 128 r.desc = (some d, s)) :
    s.consume n r =
      if s.descMalformed d then (s.pastDesc n).setStep (s.nextKey n) (acceptedStep d [] 0x102 s.stamp)
      else acceptListed (s.nextKey n) s.stamp (s.chan n) d ((s.pastDesc n).listRead d r.list) := by
  rw [Channel.descAddr] at hd
  simp only [State.consume, hg, hd, Bool.true_eq_false, if_false]
  rfl

end

theorem State.listRead_sameWork (s : State) (d : List Byte) (r : Resp) : s.SameWork (s.listRead d r).2 := by
  unfold State.listRead
  split
  · exact .refl s
  · exact s.keepReadAns_sameWork ..

/-- What the acceptance of a step says of the step, whatever it says of its checks: it has its place in the table, the
channel is past the descriptor, and memory and other steps stay. -/
theorem State.accepted_frame {s w : State} {n : Nat} (hw : (s.pastDesc n).SameWork w) (d : List Byte) (rs : List (Nat × Nat))
    (fail : Nat) :
    let t := w.setStep (s.nextKey n) (acceptedStep d rs fail s.stamp)
    Tab.find t.steps (s.nextKey n) = some (acceptedStep d rs fail s.stamp) ∧ t.mem = s.mem ∧
      t.chan n = { s.chan n with sqCons := ((s.chan n).sqCons + 1) % 65536 } ∧
      ∀ k, k ≠ s.nextKey n → Tab.find t.steps k = Tab.find s.steps k := by
  obtain ⟨mem, steps, chans⟩ := hw
  refine ⟨Tab.find_set_same _ _ _, mem, ?_, fun k hk => ?_⟩
  · rw [← s.chan_pastDesc n]
    exact congrArg (Tab.get {} · n) chans
  · rw [State.setStep, Tab.find_set, if_neg hk, steps]
    rfl

/-- A read descriptor's step is accepted, with the first check that fails. -/
theorem State.consume_accepts {s : State} {n : Nat} {d : List Byte} {r : DescAns} (hg : s.gateOpen n = true)
    (hd : s.keepReadAns (s.chan n).descAddr 128 r.desc = (some d, s)) :
    ∃ w rs fail, s.consume n r = w.setStep (s.nextKey n) (acceptedStep d rs fail s.stamp) ∧ (s.pastDesc n).SameWork w ∧
      (s.descMalformed d = true → fail = 0x102) ∧
      (s.descMalformed d = false → regionCount d ≠ 0 → inWindow (leAt d 0x50 8) (16 * regionCount d) = true →
        r.list = .hostErr → fail = 0x201 ∧ Holds w Reg.hstStatHosterr 1) ∧
      (s.descMalformed d = false → regionCount d = 0 → fail = s.firstFail (s.chan n) (acceptedStep d [] 0 s.stamp)) := by
  have accept := State.consume_of_desc hg hd
  cases hm : s.descMalformed d with
  | true =>
    rw [hm, if_pos rfl] at accept
    exact ⟨_, _, _, accept, .refl _, fun _ => rfl, nofun, nofun⟩
  | false =>
    rw [hm, if_neg Bool.false_ne_true] at accept
    have same := (s.pastDesc n).listRead_sameWork d r.list
    by_cases hc : regionCount d = 0
    · have noList : (s.pastDesc n).listRead d r.list = (some [], s.pastDesc n) := if_pos hc
      rw [noList] at accept
      simp only [acceptListed, hc, regionList] at accept
      exact ⟨_, _, _, accept, .refl _, nofun, fun _ h => absurd hc h, fun _ _ => rfl⟩
    · have read : (s.pastDesc n).listRead d r.list = (s.pastDesc n).keepReadAns (leAt d 0x50 8) (16 * regionCount d) r.list :=
        if_neg hc
      cases hl : ((s.pastDesc n).listRead d r.list).1 with
      | none =>
        rw [acceptListed, hl] at accept
        refine ⟨_, _, _, accept, same, nofun, fun _ _ hin hr => ⟨rfl, ?_⟩, fun _ h => absurd h hc⟩
        rw [read, hr, State.keepReadAns_hostErr _ _ _ hin]
        exact holds_setF_same _ _ _ (by decide) (by decide)
      | some bs =>
        rw [acceptListed, hl] at accept
        refine ⟨_, _, _, accept, same, nofun, fun _ _ hin hr => ?_, fun _ h => absurd h hc⟩
        rw [read, hr, State.keepReadAns_hostErr _ _ _ hin] at hl
        cases hl

/-! The checks of a step without regions (R462). -/

/-- The descriptor asks what cannot be on its channel: row 2, for a step without regions. -/
def StepSt.wrongOn (st : StepSt) (c : Channel) : Prop :=
  leAt st.desc 5 1 = 0 ∨ 7 ≤ leAt st.desc 6 1 % 16 ∨ (st.place = true ∧ st.named.length ≠ st.need) ∨
    (st.place = false ∧ st.mask ≠ 0) ∨ (c.saveBase ≠ 0 ∧ c.saveTowers < st.need)

/-- The Towers in service are too few, or one that it names is retired: row 3. -/
def State.shortOf (s : State) (st : StepSt) : Prop :=
  s.f Reg.keepStatTowers < st.need ∨ (st.place = true ∧ ∃ u ∈ st.named, (s.tw u).run = .retired)

section
variable (s : State) (c : Channel) (st : StepSt)

theorem rowTwo_iff (h : regionCount st.desc = 0) :
    rowTwo st (if c.saveBase = 0 then none else some c.saveTowers) = true ↔ st.wrongOn c := by
  have few : ¬ 256 < st.fieldAt 0x58 2 + st.fieldAt 0x5A 2 := by
    rw [show st.fieldAt 0x58 2 + st.fieldAt 0x5A 2 = 0 from h]; decide
  have budget : leAt st.desc 5 1 = st.budget := rfl
  have hint : leAt st.desc 6 1 = st.hint := rfl
  by_cases hs : c.saveBase = 0 <;> simp [rowTwo, StepSt.wrongOn, budget, hint, few, hs, or_assoc]

theorem State.rowThree_iff : s.rowThree st = true ↔ s.shortOf st := by
  simp [State.rowThree, State.shortOf, State.inService]

/-- Rows 2 and 3 alone can fail, in this order. -/
theorem State.firstFail_of_noRegions (hr : st.regions = []) (hc : regionCount st.desc = 0) :
    (st.wrongOn c → s.firstFail c st = 0x103) ∧ (¬ st.wrongOn c → s.shortOf st → s.firstFail c st = 0x10A) ∧
      (¬ st.wrongOn c → ¬ s.shortOf st → s.firstFail c st = 0) := by
  have first : s.firstFail c st = if rowTwo st (if c.saveBase = 0 then none else some c.saveTowers) then 0x103
      else if s.rowThree st then 0x10A else 0 := by
    simp [State.firstFail, regionsBad, rowFour, hr]
  rw [← rowTwo_iff c st hc, ← s.rowThree_iff st, first]
  exact ⟨fun two => if_pos two, fun two three => (if_neg two).trans (if_pos three),
    fun two three => (if_neg two).trans (if_neg three)⟩

end

/-! `KEEP_CFG` (R476). -/

section
variable (s : State) (p : Prop) [Decidable p] (r q : RegField) (v : Nat)

/-- A field that is written only if a condition holds stays where it does not. -/
theorem State.holds_setF_if (h : r.hi < 64) (hl : r.lo ≤ r.hi) :
    Holds (if p then s.setF r v else s) r (if p then v else s.f r) := by
  split
  · exact holds_setF_same s r v h hl
  · exact (Nat.mod_eq_of_lt (fld_lt _ _ _)).symm

theorem State.f_setF_if_disjoint (h : r.hi < 64) (hl : r.lo ≤ r.hi) (hd : q.addr ≠ r.addr ∨ q.hi < r.lo ∨ r.hi < q.lo) :
    (if p then s.setF r v else s).f q = s.f q := by
  split
  · exact s.f_setF_disjoint r q v h hl hd
  · rfl

theorem State.roll_setF_if : (if p then s.setF r v else s).roll = s.roll := by
  split <;> rfl

end

/-- The state once those of the register's three fields that are in range are written. -/
def State.cfgFields (s : State) (v : Dword) : State :=
  let s₁ := if fld v 39 32 ≠ 0 then s.setF Reg.keepCfgSlice (fld v 39 32) else s
  let s₂ := s₁.setF Reg.keepCfgReexecMax (fld v 26 24)
  if 1 ≤ fld v 10 0 ∧ fld v 10 0 ≤ 1024 then s₂.setF Reg.keepCfgXferMax (fld v 10 0) else s₂

section
variable (s : State) (v : Dword)

theorem State.keepCfgWrite_eq : s.keepCfgWrite v =
    { s.cfgFields v with
      roll := { (s.cfgFields v).roll with keepCfgDue := (s.cfgFields v).stampAfter (s.cfgFields v).roll.keepCfgDue } } := by
  simp only [State.keepCfgWrite, State.cfgFields, ne_eq, ite_not]

theorem State.cfgFields_roll : (s.cfgFields v).roll = s.roll := by
  rw [State.cfgFields, State.roll_setF_if, State.setF_roll, State.roll_setF_if]

theorem State.cfgFields_reexecMax : Holds (s.cfgFields v) Reg.keepCfgReexecMax (fld v 26 24) := by
  rw [Holds, State.cfgFields, State.f_setF_if_disjoint _ _ _ _ _ (by decide) (by decide) (by decide)]
  exact holds_setF_same _ _ _ (by decide) (by decide)

theorem State.cfgFields_slice :
    Holds (s.cfgFields v) Reg.keepCfgSlice (if fld v 39 32 ≠ 0 then fld v 39 32 else s.f Reg.keepCfgSlice) := by
  rw [Holds, State.cfgFields, State.f_setF_if_disjoint _ _ _ _ _ (by decide) (by decide) (by decide),
    State.f_setF_disjoint _ _ _ _ (by decide) (by decide) (by decide)]
  exact s.holds_setF_if _ _ _ (by decide) (by decide)

theorem State.cfgFields_xferMax : Holds (s.cfgFields v) Reg.keepCfgXferMax
    (if 1 ≤ fld v 10 0 ∧ fld v 10 0 ≤ 1024 then fld v 10 0 else s.f Reg.keepCfgXferMax) := by
  have before : (State.setF (if fld v 39 32 ≠ 0 then s.setF Reg.keepCfgSlice (fld v 39 32) else s) Reg.keepCfgReexecMax
      (fld v 26 24)).f Reg.keepCfgXferMax = s.f Reg.keepCfgXferMax := by
    rw [State.f_setF_disjoint _ _ _ _ (by decide) (by decide) (by decide),
      State.f_setF_if_disjoint _ _ _ _ _ (by decide) (by decide) (by decide)]
  rw [← before]
  exact State.holds_setF_if _ _ _ _ (by decide) (by decide)

end

end Sys2Proof.Machine
end

section

namespace Sys2Proof.Proofs
open Sys2Proof.Machine Sys2Proof.Says

/-- Settles O46: a doorbell moves its channel's pointers or is discarded (R456, R458); the descriptor of the channel whose turn it is
(R459) is read and its step accepted with the first check that fails, or the channel is FAULTED (R462); and `KEEP_CFG` keeps
fields out of range. -/
theorem stepsAccepted : Obligations.StepsAccepted := by
  unfold Obligations.StepsAccepted
  intro n v s c prod cons aborted bad
  refine ⟨fun hbad => ?discarded, fun hok => ?moved, fun r hw => ?waits, fun m p rest hb hg hp => State.nextToConsume_of_head hb hg hp,
    fun hnext => ⟨fun r ha => ?accepted, fun hin l => ?faulted⟩, ?cfg⟩
  case discarded => exact congrArg Host.Outcome.next (State.doorbellWrite_of_refused hbad)
  case moved =>
    by_cases ha : c.state = 2 ∨ (c.state = 3 ∧ c.abortPend = true)
    · refine ⟨_, congrArg Host.Outcome.next (State.doorbellWrite_of_aborted hok ha), rfl, ?_, fun m hm => ?_, fun _ => rfl,
        fun e he _ => he, fun h => absurd ha h⟩
      · rw [State.chan_setChan_same, if_pos ha]
      · rw [State.chan_setChan, if_neg hm]
    · refine ⟨_, congrArg Host.Outcome.next (State.doorbellWrite_of_open hok ha), rfl, ?_, fun m hm => ?_, fun h => absurd h ha,
        fun e he hn => ?_, fun _ hlt hne => s.exists_mem_rung n.toNat v hlt hne⟩
      · rw [State.chan_rung, if_pos rfl, if_neg ha]; rfl
      · rw [State.chan_rung, if_neg hm]
      · exact (s.mem_rung n.toNat v e).mpr ⟨mem_doorbellOrder_of_ne _ _ _ _ he hn, fun h => hn (congrArg Prod.fst h)⟩
  case waits =>
    have notNext : s.nextToConsume ≠ some n.toNat := by
      rcases hw with shut | other
      · exact fun h => Bool.false_ne_true (shut ▸ State.gateOpen_of_next h)
      · exact other
    exact congrArg Host.Outcome.next (if_neg notNext)
  case accepted =>
    have gate := State.gateOpen_of_next hnext
    have read := keepReadAns_of_answers ha (by decide) r.desc
    obtain ⟨w, rs, fail, accept, same, malformed, listErr, noList⟩ := State.consume_accepts gate read
    obtain ⟨step, mem, chan, others⟩ := State.accepted_frame same (memAt s c.descAddr 128) rs fail
    refine ⟨_, acceptedStep (memAt s c.descAddr 128) rs fail s.stamp,
      congrArg Host.Outcome.next ((if_pos hnext).trans accept), step, rfl, rfl, rfl, rfl, mem, chan, others, malformed,
      fun fine hin listed herr => listErr fine listed hin herr, fun fine unlisted => ?_⟩
    obtain rfl := noList fine unlisted
    exact s.firstFail_of_noRegions c (acceptedStep (memAt s c.descAddr 128) [] 0 s.stamp) rfl unlisted
  case faulted =>
    have consumed : s.consume n.toNat ⟨.hostErr, l⟩ = (s.setF Reg.hstStatHosterr 1).chanFault n.toNat :=
      State.consume_of_noDesc (State.gateOpen_of_next hnext) (s.keepReadAns_hostErr _ _ hin)
    obtain ⟨state, steps, regs⟩ := (s.setF Reg.hstStatHosterr 1).chanFault_faults n.toNat
    refine ⟨_, congrArg Host.Outcome.next ((if_pos hnext).trans consumed), state, steps, ?_⟩
    rw [Holds, regs _ (by decide)]
    exact holds_setF_same _ _ _ (by decide) (by decide)
  case cfg =>
    refine ⟨_, congrArg Host.Outcome.next (s.keepCfgWrite_eq v), ?_, s.cfgFields_reexecMax v, ?_, s.cfgFields_xferMax v⟩
    · show (s.cfgFields v).roll.keepCfg = s.roll.keepCfg
      rw [s.cfgFields_roll v]
    · rw [← ite_not]; exact s.cfgFields_slice v

end Sys2Proof.Proofs
end
